-- ==== Sys2Proof/Word.lean ====
section
/-! DEFINITION. The plain words of the AP-24: bytes of the control line, audio samples, and the index types of
feeds, programs, ranks and alarm entries (00_scope.md sections 4 and 5). -/
namespace Sys2Proof

/-- One byte of the control line. -/
abbrev Byte := BitVec 8

/-- A 24-bit audio sample, two's complement, relative to full scale (01_feed_ports.md section 1.2). -/
abbrev Sample := BitVec 24

/-- A feed number, 0 to 15. -/
abbrev FeedId := Fin 16

/-- A program number, 0 to 7. -/
abbrev ProgId := Fin 8

/-- The rank of a source set, 0 to 3. -/
abbrev Rank := Fin 4

/-- An alarm entry identifier, 0 to 136 (R131). The same number names the entry's condition. -/
abbrev EntryId := Fin 137

end Sys2Proof
end

