-- ==== Sys2Proof/Syntax.lean ====
section
/-! DEFINITION. The commands of the AP-24: one constructor for each row of spec/opcode_table.json. The first
twenty-six are the message kinds of the control line, each with the message that carries it; then the refused frame of
an unknown kind; then the events of the pins, the clock, the timers and the resets. -/
namespace Sys2Proof

/-- A message as the Command Unit takes it (R150): whether it came to address 31, whether its check-form mark is set,
and its body bytes. The kind is the constructor that carries the message. -/
structure Msg where
  /-- the frame's address field is 31 (R150) -/
  broadcast : Bool := false
  /-- the check-form mark of the kind byte is set (R152) -/
  check : Bool := false
  /-- the body, first byte first (R163) -/
  body : List Byte := []
  deriving DecidableEq, Repr

/-- One piece of the work of a block close that another may stand before or after (R36, R73, R85, R88, R135). -/
inductive CloseWork where
  /-- SRC_SLIP of a feed becomes false (R36) -/
  | slip (f : FeedId)
  /-- a program's loudness controller does steps 1 to 4 of R85 and the gain law, SILENCE among them -/
  | measure (p : ProgId)
  /-- the link-group minimum and the level conditions, which take the outcome of every program (R104, R109, R110) -/
  | levels
  /-- an alarm entry's timer counts (R135) -/
  | alarm (e : EntryId)
  /-- a program's return timer counts (R73) -/
  | returns (p : ProgId)
  deriving DecidableEq, Repr

/-- The order in which a block close takes its work, where the manual lets either of two come first (R36, R73, R88,
R135): the work listed comes first, in the order listed, and the rest after it (log 23). -/
structure CloseOrder where
  first : List CloseWork := []
  /-- an alarm timer that has run out is left to the ALARM_RAISE_DELAY_EXPIRY or ALARM_CLEAR_DELAY_EXPIRY of its entry,
  and not acted on where its timer counts -/
  expiriesApart : Bool := false
  /-- a return that has fallen due is left to the RETURN_DUE of its program, and not begun where its timer counts -/
  returnsApart : Bool := false
  deriving DecidableEq, Repr, Inhabited

/-- The commands and events of spec/opcode_table.json. -/
inductive Instr where
  | ident (m : Msg)
  | restart (m : Msg)
  | linkStats (m : Msg)
  | notices (m : Msg)
  | feedConfig (m : Msg)
  | feedQuery (m : Msg)
  | progDefine (m : Msg)
  | progClear (m : Msg)
  | setDefine (m : Msg)
  | progStart (m : Msg)
  | progStop (m : Msg)
  | progRestart (m : Msg)
  | progQuery (m : Msg)
  | sourceSelect (m : Msg)
  | failoverConfig (m : Msg)
  | loudConfig (m : Msg)
  | loudQuery (m : Msg)
  | loudRestart (m : Msg)
  | delayReserve (m : Msg)
  | delayTarget (m : Msg)
  | delayQuery (m : Msg)
  | poolQuery (m : Msg)
  | alarmConfig (m : Msg)
  | alarmQuery (m : Msg)
  | alarmAck (m : Msg)
  | alarmScan (m : Msg)
  /-- an accepted frame refused with BAD_KIND: its kind byte and its message -/
  | badKindFrame (kind : Byte) (m : Msg)
  /-- a frame-start edge on FSYNC of a feed. `frameFirst` says whether a frame cut short by the edge is handed over
  before the span the edge yields is taken (R23 allows both orders) -/
  | frameEdge (f : FeedId) (frameFirst : Bool)
  /-- the 32 bits of a complete subframe of a feed have been received -/
  | subframeJudged (f : FeedId) (word : BitVec 32)
  /-- the loss timer of a feed expires. `lossFirst` says whether FEED_LOST is made true before the converter's class
  event is announced (section 4.10, step 1: the two notices join the queue in either order) -/
  | feedLossTimeout (f : FeedId) (lossFirst : Bool)
  | outputSample
  | startFadeEnd (p : ProgId)
  | stopFadeEnd (p : ProgId)
  | swapSwitch (p : ProgId)
  | swapEnd (p : ProgId)
  | blockClose (order : CloseOrder)
  | silenceTimeout (p : ProgId)
  | returnDue (p : ProgId)
  | slewStepComplete (p : ProgId)
  | cutJump (p : ProgId)
  | cutInEnd (p : ProgId)
  | alarmRaiseDelayExpiry (e : EntryId)
  | alarmClearDelayExpiry (e : EntryId)
  | houseRefEdge
  | houseRefLossTimeout
  /-- the end of a power-on reset, with the UADDR and BAUD straps read at it (R146) -/
  | powerOnReset (uaddr : BitVec 5) (baud : BitVec 2)
  | unitRestart
  | byteReceived (b : Byte)
  | receiverGapTimeout
  | replySent
  | powerOnResetStart
  deriving DecidableEq, Repr

end Sys2Proof
end

