-- ==== Sys2Proof/Decode.lean ====
section
/-! DEFINITION. The command that a word spells by the bits of spec/opcode_table.json. The table gives no row any bits:
the AP-24's commands are frames, pin events and timer events, and none of them is a word. -/
namespace Sys2Proof

/-- No row of the opcode table has an encoding in bits, so no word spells a command. A frame's bytes are read by the
receiver (`Machine.takeByte`), the command BYTE_RECEIVED. -/
def decodeTableWord (_nbits _w : Nat) : Option Instr := none

end Sys2Proof
end

