-- ==== Sys2Proof/Config.lean ====
section
/-! DEFINITION. What the silicon fixes: the capacities of 00_scope.md section 4, and the values the manual leaves
open, each an opaque constant without a body, so that no proof can see what it is. -/
namespace Sys2Proof.Config

/-- Output samples in one block (00_scope.md section 5). -/
abbrev blockSamples : Nat := 4800

/-- Master ticks in one output sample (00_scope.md section 4). -/
abbrev ticksPerSample : Nat := 512

/-- The full value of the swap fade level and of the output fade level (section 3.1 of the Programs chapter). -/
abbrev fadeFull : Nat := 480

/-- Pages of the Delay Store (R113). -/
abbrev pageCount : Nat := 4096

/-- Samples of one page (R114). -/
abbrev pageSamples : Nat := 1024

/-- Frames held by the limiter's lookahead (R107). -/
abbrev lookaheadFrames : Nat := 48

/-- Notices held by the Notice Queue (R153). -/
abbrev queueLimit : Nat := 32

/-- The largest value of a 16-bit saturating counter (R11, R36, R109, R147 to R149). -/
abbrev counterLimit : Nat := 65535

/-- FREE VALUE (log 3). The interpolator of a rate converter, one fixed filter: its whole filter history, newest sample
first, and the sub-filter 0 to 63 give the converted sample, relative to full scale. The coefficients are not given
(R32). -/
opaque interpolate : List Sample → Nat → Rat

/-- FREE VALUE (log 3). One less than the number of input frames the interpolator works on (R32 does not say). -/
opaque historyExtra : Nat

/-- FREE VALUE (log 4). The sample a weighting filter gives from its memory and its input (R82: coefficients not
given). -/
opaque weightedSample : List Rat → Rat → Rat

/-- FREE VALUE (log 4). The memory a weighting filter holds after its input (R82: coefficients not given). -/
opaque weightedMemory : List Rat → Rat → List Rat

/-- FREE VALUE (log 5). How far the part's multiplier for a level, where 10^(level/200) is not a rational number (R106,
R107), lies above the whole number of 2^-32 given, in parts of 2^-32. Only 0 to 1 of it is used. -/
opaque gainFraction : Nat → Rat

/-- FREE VALUE (log 6). The 24-bit sample sent for an output value that is no 24-bit sample itself (R59 states no
rounding). -/
opaque roundSample : Rat → Sample

/-- FREE VALUE (log 7). The choice made where the manual leaves open which of several events of one instant is taken
first. Applied to the model's own counter of such choices. -/
opaque choice : Nat → Nat

/-- FREE VALUE (log 7, log 23). The order in which a block close that the part makes of itself takes its work. Applied
to the model's own counter of choices. -/
opaque closeOrder : Nat → CloseOrder

end Sys2Proof.Config
end

