-- ==== Sys2Proof/Machine/State.lean ====
section
/-! DEFINITION. The state of one AP-24 as plain data: every record the manual's chapters give the part, the pins it
drives, the queue of commands waiting to be taken, and the few fields the model adds of its own (each says so).
`State.reset` is the part right after a power-on reset. -/
namespace Sys2Proof.Machine

/-! ## Feed ports (01_feed_ports.md section 1.1) -/

/-- The five rate classes (R16). `Option RateClass` is a class that may be AUTO (expected) or none (held). -/
inductive RateClass where
  | k32 | k44 | k48 | k88 | k96
  deriving DecidableEq, Repr

/-- A channel of a feed. -/
inductive Chan where
  | a | b
  deriving DecidableEq, Repr

/-- The concealment record of one channel of a feed port (section 1.1, R8, R9, R11). -/
structure Channel where
  badRun : Nat := 0
  muted : Bool := false
  goodRun : Nat := 0
  lastGood : Sample := 0
  concealCount : Nat := 0
  muteCount : Nat := 0
  deriving DecidableEq, Repr

/-- How far the frame in progress of a port has come (R1, R2): no frame, a frame with no complete subframe, a frame
whose A sample has been delivered, or a frame already handed over. Implied by R1 and R2 (log 8). -/
inductive FrameProgress where
  | none
  | opened
  | gotA (delivered : Sample)
  | handed
  deriving DecidableEq, Repr

/-- The most recent span (section 1.1): its ticks, and whether its overflow mark was set. -/
structure Span where
  ticks : Nat
  overflow : Bool
  deriving DecidableEq, Repr

/-- One feed port (section 1.1). -/
structure Port where
  enable : Bool := false
  /-- expected class; `none` is AUTO -/
  expected : Option RateClass := none
  parityCheck : Bool := true
  honourValidity : Bool := true
  chA : Channel := {}
  chB : Channel := {}
  /-- master ticks since the last frame edge, `none` while the timer is stopped (R12, R13) -/
  lossTimer : Option Nat := none
  /-- the timeout taken at the timer's last restart (R12) -/
  lossTimeout : Nat := 3072
  /-- edge 0 of the present span has been received (R15; implied, log 8) -/
  spanOpen : Bool := false
  edgeCount : Nat := 0
  spanCounter : Nat := 0
  overflowMark : Bool := false
  lastSpan : Option Span := none
  frame : FrameProgress := .none
  deriving DecidableEq, Repr

/-! ## Rate converters (02_rate_converters.md section 2.1) -/

inductive ConvState where
  | idle | search | track | locked
  deriving DecidableEq, Repr

/-- An input frame: its A and B samples as delivered (R2). -/
structure InFrame where
  a : Sample := 0
  b : Sample := 0
  deriving DecidableEq, Repr

/-- One rate converter (section 2.1). -/
structure Converter where
  state : ConvState := .idle
  cls : Option RateClass := none
  /-- R, the ratio estimate -/
  ratio : Nat := 0
  /-- U, the step used -/
  stepUsed : Nat := 0
  /-- the FIFO, oldest frame first; its length is the fill -/
  fifo : List InFrame := []
  phase : Nat := 0
  /-- the filter history, newest frame first; frames not listed are zero -/
  history : List InFrame := []
  lastConsumed : Option InFrame := none
  refillWait : Bool := false
  lockRun : Nat := 0
  unlockRun : Nat := 0
  slipCount : Nat := 0
  deriving DecidableEq, Repr

/-- A feed: its port, its converter, and the health the Failover Controller keeps for it (R62). -/
structure Feed where
  port : Port := {}
  conv : Converter := {}
  healthy : Bool := false
  deriving DecidableEq, Repr

/-- The state of the master clock against HREF (R39, R40, R42): at the crystal's nominal frequency, following the
reference (being pulled to it, or agreeing with it), or running free at the frequency it held. -/
inductive MasterClock where
  | crystal | following | held
  deriving DecidableEq, Repr

/-- The House Reference Monitor (section 2.8). -/
structure Monitor where
  /-- the state is LOST -/
  lost : Bool := false
  /-- master ticks since the last HREF edge, `none` while the timer is stopped -/
  timer : Option Nat := some 0
  clock : MasterClock := .crystal
  deriving DecidableEq, Repr

/-! ## Programs (03 section 3.1, 04 section 4.4) -/

inductive ProgState where
  | undefined | defined | running | stopping
  deriving DecidableEq, Repr

/-- Weight codes 0, 1 and 2 (R45). -/
inductive WeightCode where
  | excluded | unity | surround
  deriving DecidableEq, Repr

/-- An entry of a source set: a feed and a channel of it. -/
structure SlotSource where
  feed : FeedId
  chan : Chan
  deriving DecidableEq, Repr

inductive SwapPhase where
  | none | fadeOut | fadeIn
  deriving DecidableEq, Repr

inductive SwapCause where
  | failover | silence | return | select
  deriving DecidableEq, Repr

/-- The swap record (section 4.4). -/
structure Swap where
  phase : SwapPhase := .none
  level : Nat := 480
  cause : Option SwapCause := none
  origin : Option Rank := none
  selected : Option Rank := none
  deriving DecidableEq, Repr

inductive FadeDir where
  | none | fadeIn | fadeOut
  deriving DecidableEq, Repr

/-! ## Loudness (05 section 5.1, 06 section 6.1) -/

inductive LoudMode where
  | correct | measure | bypass
  deriving DecidableEq, Repr

/-- The loudness settings with their defaults (R99). Levels in level steps, times in blocks. -/
structure LoudSettings where
  mode : LoudMode := .correct
  target : Int := -240
  cutMax : Int := 200
  boostMax : Int := 120
  rise : Int := 5
  fall : Int := 20
  holdOff : Nat := 0
  window : Nat := 100
  ceiling : Int := -10
  overThreshold : Int := -80
  silenceThreshold : Int := -600
  silenceTime : Nat := 50
  link : Nat := 0
  deriving DecidableEq, Repr

inductive GateVerdict where
  | none | admitted | notAdmitted
  deriving DecidableEq, Repr

/-- One loudness controller (sections 5.1 and 6.1). I is the rounded mean of `window` and is not kept twice (R91). -/
structure Loudness where
  /-- weighting filter memory of each slot; cells not listed are zero (R82) -/
  weighting : List (List Rat) := []
  /-- block accumulator of each slot (R83) -/
  accumulators : List Rat := []
  incomplete : Bool := false
  lastB : Option Int := none
  lastM : Option Int := none
  lastVerdict : GateVerdict := .none
  /-- momentary history, oldest first -/
  history : List Int := []
  /-- integration window, oldest first -/
  window : List Int := []
  silenceTimer : Nat := 50
  pending : LoudSettings := {}
  active : LoudSettings := {}
  /-- G, own gain -/
  ownGain : Int := 0
  /-- A, applied gain -/
  appliedGain : Int := 0
  presentGain : Rat := 0
  rampTarget : Int := 0
  rampLeft : Nat := 0
  /-- frames between the gain stage and the limiter output, oldest first; frames not listed are zero and older -/
  lookahead : List (List Rat) := []
  limiterGain : Rat := 1
  heldDown : Nat := 0
  ceilingBlocks : Nat := 0
  deriving DecidableEq, Repr

/-! ## Delay (07 section 7.1) -/

/-- The step intervals of 64, 128, 256 and 512 output samples (codes 0 to 3). -/
inductive StepInterval where
  | n64 | n128 | n256 | n512
  deriving DecidableEq, Repr

inductive DelayOp where
  | none | slew | cutOut | cutIn
  deriving DecidableEq, Repr

inductive StepDir where
  | up | down
  deriving DecidableEq, Repr

/-- The delay record of one program (section 7.1). -/
structure DelayRec where
  reserve : Nat := 0
  chain : List Nat := []
  writePos : Nat := 0
  flushCounter : Nat := 0
  ltgt : Nat := 0
  slewLimit : Nat := 480
  interval : StepInterval := .n256
  dtgt : Nat := 0
  dcur : Nat := 0
  op : DelayOp := .none
  progress : Nat := 0
  dir : StepDir := .up
  /-- the step interval in force when the present SLEW step began -/
  stepInterval : StepInterval := .n256
  deriving DecidableEq, Repr

/-- The program record (sections 3.1 and 4.4) with its loudness controller and its delay record. The current rank and
the alignment values follow from the stack, the sets and the held classes (R57) and are not kept twice. -/
structure Program where
  state : ProgState := .undefined
  /-- slot count c, 0 for none -/
  slots : Nat := 0
  weights : List WeightCode := []
  sets : Vector (Option (List SlotSource)) 4 := .replicate 4 none
  /-- the source stack, bottom first -/
  stack : List Rank := []
  swap : Swap := {}
  outLevel : Nat := 0
  outDir : FadeDir := .none
  marks : Vector Bool 4 := .replicate 4 false
  returnTimer : Nat := 0
  /-- the MODEL's own: the last block close found the return timer at or above the hold with no swap in flight, and
  the return has not begun (R74; log 9) -/
  returnFell : Bool := false
  autoReturn : Bool := true
  returnHold : Nat := 300
  resetOnSwap : Bool := false
  loud : Loudness := {}
  delay : DelayRec := {}
  deriving DecidableEq, Repr

/-! ## Alarm table (08 section 8.1) -/

inductive Severity where
  | off | info | minor | major
  deriving DecidableEq, Repr

inductive Action where
  | none | failover
  deriving DecidableEq, Repr

inductive EntryState where
  | clear | rising | active | falling
  deriving DecidableEq, Repr

/-- The configuration of an alarm entry. -/
structure EntryConfig where
  severity : Severity
  raiseDelay : Nat
  clearDelay : Nat
  action : Action
  deriving DecidableEq, Repr

/-- One alarm entry: its configuration and its run state. -/
structure Entry where
  config : EntryConfig
  state : EntryState := .clear
  timer : Nat := 0
  latched : Bool := false
  acknowledged : Bool := false
  raiseCount : Nat := 0
  stamp : BitVec 32 := 0
  deriving DecidableEq, Repr

/-- The condition numbers k of a feed's entries, 5f + k (R131). -/
inductive FeedCond where
  | feedLost | rateUnknown | feedErrors | srcUnlocked | srcSlip
  deriving DecidableEq, Repr

/-- The condition numbers k of a program's entries, 80 + 7p + k (R131). -/
inductive ProgCond where
  | silence | overLevel | ceiling | latencyUnder | latencyOver | noSource | onBackup
  deriving DecidableEq, Repr

/-- The default configuration of an entry, by its identifier (R131, R132). -/
def defaultConfig (e : EntryId) : EntryConfig :=
  if e.val < 80 then
    match e.val % 5 with
    | 0 => ⟨.major, 0, 10, .failover⟩
    | 1 => ⟨.minor, 5, 10, .none⟩
    | 2 => ⟨.minor, 5, 10, .failover⟩
    | 3 => ⟨.minor, 20, 10, .none⟩
    | _ => ⟨.info, 0, 10, .none⟩
  else if e.val < 136 then
    match (e.val - 80) % 7 with
    | 0 => ⟨.minor, 0, 10, .none⟩
    | 1 => ⟨.minor, 3, 10, .none⟩
    | 2 => ⟨.info, 10, 10, .none⟩
    | 3 => ⟨.minor, 0, 10, .none⟩
    | 4 => ⟨.minor, 0, 10, .none⟩
    | 5 => ⟨.major, 0, 10, .none⟩
    | _ => ⟨.info, 0, 0, .none⟩
  else ⟨.major, 0, 10, .none⟩

/-! ## Control line and notices (09) -/

inductive RxState where
  | hunt | address | kind | length | body | check | skip | busy
  deriving DecidableEq, Repr

/-- The receiver and its link counters (section 9.2). -/
structure Receiver where
  state : RxState := .hunt
  address : Byte := 0
  kind : Byte := 0
  length : Byte := 0
  /-- the body bytes of the frame in progress, first byte first -/
  body : List Byte := []
  /-- bytes still to come in BODY or in SKIP -/
  left : Nat := 0
  /-- master ticks since the end of the last byte; it runs from ADDRESS to CHECK and in SKIP (R147) -/
  gapTimer : Nat := 0
  checkFail : Nat := 0
  gap : Nat := 0
  overrun : Nat := 0
  deriving DecidableEq, Repr

inductive NoticeKind where
  | alarmRaised | alarmCleared | sourceChanged | feedClass | delaySettled | programStopped | restarted
  deriving DecidableEq, Repr

/-- The source of a notice or of an alarm entry. -/
inductive Source where
  | feed (f : FeedId)
  | program (p : ProgId)
  | unit
  deriving DecidableEq, Repr

/-- A notice (section 9.4, R164), with the six bytes of its detail. -/
structure Notice where
  kind : NoticeKind
  source : Source
  detail : List Byte
  stamp : BitVec 32
  deriving DecidableEq, Repr

inductive ResetCause where
  | power | restart
  deriving DecidableEq, Repr

/-- Where a unit restart asked for by RESTART stands (R158; the MODEL's own, log 10). -/
inductive RestartPhase where
  | none | afterReply | due
  deriving DecidableEq, Repr

/-- The sample memory of the Delay Store: (address, sample) pairs, addresses rising, no sample 0 listed. The address of
offset o of page n is n × 1,024 + o. An unlisted address reads as 0. -/
abbrev Memory := List (Nat × Rat)

/-- One AP-24. -/
structure State where
  /-- the MODEL's own: the commands waiting to be taken, first in, first out -/
  pending : List Instr
  feeds : Vector Feed 16
  monitor : Monitor
  progs : Vector Program 8
  /-- the free list of pages, head first (R113) -/
  freePages : List Nat
  /-- the content of the Delay Store's pages -/
  store : Memory
  entries : Vector Entry 137
  /-- the conditions, each under its entry's identifier (R131) -/
  conds : Vector Bool 137
  /-- the Notice Queue, oldest first -/
  notices : List Notice
  /-- the missed set: bit s for the source with identifier s (R164) -/
  missed : BitVec 32
  blockCounter : BitVec 32
  rx : Receiver
  /-- the bytes of the reply being sent (R149) -/
  reply : Option (List Byte)
  restart : RestartPhase
  unitAddr : BitVec 5
  baud : BitVec 2
  resetCause : ResetCause
  /-- a power-on reset is in progress (R157) -/
  inReset : Bool
  /-- the ATTN pin is asserted -/
  attn : Bool
  lampMajor : Bool
  lampMinor : Bool
  /-- the frame each output port sends for the present output sample, slot 0 first (R59) -/
  ports : Vector (Vector (BitVec 32) 8) 8
  /-- master ticks since the last output sample (the position of the output sample; log 11) -/
  tick : Nat
  /-- output samples since the last block close (the position of the block boundaries, R158; log 11) -/
  sampleInBlock : Nat
  /-- the MODEL's own: how many choices of order have been taken from Config.choice -/
  freeCount : Nat
  deriving DecidableEq, Repr

/-- No command of this model faults: the manual gives every one of them an effect. -/
inductive Fault where
  deriving DecidableEq, Repr

/-- The refusals. -/
inductive Refusal where
  /-- raised by an arm of exec whose command has no meaning yet; safe. No arm raises it. -/
  | notModelled (mnemonic : String)
  deriving DecidableEq, Repr

/-- The part at the end of a power-on reset, with the straps read at it (R157 and the reset rules of each chapter:
R19, R42, R61, R80, R98, R112, R130, R132, R133). -/
def State.powerOn (uaddr : BitVec 5) (baud : BitVec 2) : State where
  pending := []
  feeds := .replicate 16 {}
  monitor := {}
  progs := .replicate 8 {}
  freePages := List.range Config.pageCount
  store := []
  entries := .ofFn fun e => { config := defaultConfig e }
  conds := .replicate 137 false
  notices := []
  missed := 0
  blockCounter := 0
  rx := {}
  reply := none
  restart := .none
  unitAddr := uaddr
  baud := baud
  resetCause := .power
  inReset := false
  attn := false
  lampMajor := false
  lampMinor := false
  ports := .replicate 8 (.replicate 8 0)
  tick := 0
  sampleInBlock := 0
  freeCount := 0

/-- The machine right after reset: a power-on reset with every strap at 0 (log 1). -/
def State.reset : State := State.powerOn 0 0

end Sys2Proof.Machine
end

