-- ==== Sys2Proof/Machine/Ops.lean ====
section
/-! DEFINITION. The named operations every chapter's rules are written with: reading and writing one record of the
state, the arithmetic conventions of 00_scope.md section 5, big-endian fields (R159), the sample memory of the Delay
Store, the Notice Queue (R153), and the output pins judged from the state. -/
namespace Sys2Proof.Machine

/-! ## Records of the state -/

/-- The record of feed f. -/
def State.feed (s : State) (f : FeedId) : Feed := s.feeds[f.val]

/-- The record of program p. -/
def State.prog (s : State) (p : ProgId) : Program := s.progs[p.val]

/-- The alarm entry e. -/
def State.entry (s : State) (e : EntryId) : Entry := s.entries[e.val]

/-- The present value of the condition of entry e. -/
def State.cond (s : State) (e : EntryId) : Bool := s.conds[e.val]

def State.setFeed (s : State) (f : FeedId) (x : Feed) : State := { s with feeds := s.feeds.set f.val x }

def State.setProg (s : State) (p : ProgId) (x : Program) : State := { s with progs := s.progs.set p.val x }

def State.setEntry (s : State) (e : EntryId) (x : Entry) : State := { s with entries := s.entries.set e.val x }

/-- The condition of entry e takes a value; its entry is not told (that is `follow`, in Flags.lean). -/
def State.setCondBit (s : State) (e : EntryId) (v : Bool) : State := { s with conds := s.conds.set e.val v }

/-- A change of one program record. -/
def State.onProg (s : State) (p : ProgId) (g : Program → Program) : State := s.setProg p (g (s.prog p))

/-- A change of one feed's port. -/
def State.onPort (s : State) (f : FeedId) (g : Port → Port) : State :=
  s.setFeed f { s.feed f with port := g (s.feed f).port }

/-- Every feed, program and rank, in ascending order. -/
def allFeeds : List FeedId := List.finRange 16

def allProgs : List ProgId := List.finRange 8

def allRanks : List Rank := List.finRange 4

def allEntries : List EntryId := List.finRange 137

/-- A change made for each of a list of things, in order. -/
def forEach {α : Type} (l : List α) (f : α → State → State) (s : State) : State :=
  l.foldl (fun t x => f x t) s

/-! ## Arithmetic conventions (00_scope.md section 5) -/

/-- A saturating counter that stops at `limit` rises by `by_`. -/
def satAdd (limit n by_ : Nat) : Nat := min (n + by_) limit

/-- The rounded mean of a list of integers: floor((2S + n) / 2n). -/
def mean (l : List Int) : Int := (2 * l.sum + l.length) / (2 * l.length)

/-- A value outside lo to hi is taken as the nearer end (R151). -/
def clampInt (lo hi x : Int) : Int := max lo (min hi x)

/-- The last n values of a list. -/
def lastN {α : Type} (n : Nat) (l : List α) : List α := l.drop (l.length - n)

/-! ## Fields of one, two and four bytes, most significant byte first (R159) -/

def byte1 (n : Nat) : List Byte := [BitVec.ofNat 8 n]

def byte2 (n : Nat) : List Byte := [BitVec.ofNat 8 (n / 256), BitVec.ofNat 8 n]

def byte4 (n : Nat) : List Byte := byte2 (n / 65536) ++ byte2 n

/-- A signed two-byte field. -/
def signed2 (x : Int) : List Byte := byte2 (BitVec.ofInt 16 x).toNat

def bool1 (b : Bool) : List Byte := byte1 b.toNat

/-- A list brought to exactly n places, with `fill` in the unused ones. -/
def padTo {α : Type} (n : Nat) (fill : α) (l : List α) : List α := (l ++ List.replicate n fill).take n

/-- The byte at a place of a message body, 0 where there is none. -/
def byteAt (body : List Byte) (i : Nat) : Nat := (body.getD i 0).toNat

def wordAt (body : List Byte) (i : Nat) : Nat := byteAt body i * 256 + byteAt body (i + 1)

def longAt (body : List Byte) (i : Nat) : Nat := wordAt body i * 65536 + wordAt body (i + 2)

/-- A signed two-byte field of a body. -/
def signedAt (body : List Byte) (i : Nat) : Int := (BitVec.ofNat 16 (wordAt body i)).toInt

/-! ## The sample memory of the Delay Store (R114, R116, R117) -/

/-- The sample at an address; 0 where none is listed. -/
def Memory.read : Memory → Nat → Rat
  | [], _ => 0
  | (b, v) :: m, a => if a = b then v else Memory.read m a

/-- The memory with a sample stored at an address, in the canonical form: addresses rising, no 0 listed. -/
def Memory.write (a : Nat) (v : Rat) : Memory → Memory
  | [] => if v = 0 then [] else [(a, v)]
  | (b, w) :: m =>
    if a < b then (if v = 0 then (b, w) :: m else (a, v) :: (b, w) :: m)
    else if a = b then (if v = 0 then m else (a, v) :: m)
    else (b, w) :: Memory.write a v m

/-- The canonical form holds above an address: every listed address is at least it, they rise, and no 0 is listed. -/
def Memory.wfFrom (least : Nat) : Memory → Bool
  | [] => true
  | (b, v) :: m => least ≤ b && v ≠ 0 && Memory.wfFrom (b + 1) m

/-- The canonical form of the sample memory. -/
def Memory.wf (m : Memory) : Bool := Memory.wfFrom 0 m

/-! ## The Notice Queue (R153) and the source identifiers (R160) -/

def Source.code : Source → Nat
  | .feed f => f.val
  | .program p => 16 + p.val
  | .unit => 31

/-- A notice is produced: it joins the queue with the present block counter as its stamp, or, where the queue is full,
its source joins the missed set (R153). -/
def pushNotice (k : NoticeKind) (src : Source) (detail : List Byte) (s : State) : State :=
  if s.notices.length < Config.queueLimit then
    { s with notices := s.notices ++ [⟨k, src, padTo 6 0 detail, s.blockCounter⟩] }
  else { s with missed := s.missed ||| (1#32 <<< src.code) }

/-! ## Pins judged from the state -/

/-- Some entry of the severity is latched and not acknowledged (R142). -/
def lampLit (sev : Severity) (entries : List Entry) : Bool :=
  entries.any fun x => x.config.severity == sev && x.latched && !x.acknowledged

/-- ATTN and the two lamps are judged again (R142, R153); they are released and dark during a power-on reset (R157). -/
def judgePins (s : State) : State :=
  { s with
    attn := !s.inReset && (!s.notices.isEmpty || s.missed != 0)
    lampMajor := !s.inReset && lampLit .major s.entries.toList
    lampMinor := !s.inReset && lampLit .minor s.entries.toList }

/-- The frame of one output port with every slot zero (R59). -/
def zeroFrame : Vector (BitVec 32) 8 := .replicate 8 0

def State.setPort (s : State) (p : ProgId) (fr : Vector (BitVec 32) 8) : State :=
  { s with ports := s.ports.set p.val fr }

/-- How every command but a reset ends: nothing inside the part is taken while a power-on reset lasts (R157), and the
pins are judged again at the end of the step. -/
def onUnit (f : State → State) (s : State) : Host.Outcome State Fault Refusal :=
  .next (if s.inReset then s else judgePins (f s))

end Sys2Proof.Machine
end

