-- ==== Sys2Proof/Machine/Operands.lean ====
section
/-! DEFINITION. The codes of the control line (R160), the message kinds with their lengths (R161), and the reading of
request fields: indices, enumerations and continuous quantities (R151, R159, R163). -/
namespace Sys2Proof.Machine

/-! ## Codes (R160) -/

/-- The reply statuses. -/
inductive Status where
  | ok | adjusted | busy | wrongState | noRoom | badKind | badLength | badTarget | badValue
  deriving DecidableEq, Repr

def Status.code : Status → Nat
  | .ok => 0x00
  | .adjusted => 0x01
  | .busy => 0x10
  | .wrongState => 0x11
  | .noRoom => 0x12
  | .badKind => 0x20
  | .badLength => 0x21
  | .badTarget => 0x22
  | .badValue => 0x23

/-- The message kinds. -/
inductive Kind where
  | ident | restart | linkStats | notices | feedConfig | feedQuery | progDefine | progClear | setDefine | progStart
  | progStop | progRestart | progQuery | sourceSelect | failoverConfig | loudConfig | loudQuery | loudRestart
  | delayReserve | delayTarget | delayQuery | poolQuery | alarmConfig | alarmQuery | alarmAck | alarmScan
  deriving DecidableEq, Repr

def Kind.code : Kind → Nat
  | .ident => 0x01
  | .restart => 0x02
  | .linkStats => 0x03
  | .notices => 0x04
  | .feedConfig => 0x08
  | .feedQuery => 0x09
  | .progDefine => 0x0C
  | .progClear => 0x0D
  | .setDefine => 0x0E
  | .progStart => 0x0F
  | .progStop => 0x10
  | .progRestart => 0x11
  | .progQuery => 0x12
  | .sourceSelect => 0x13
  | .failoverConfig => 0x14
  | .loudConfig => 0x18
  | .loudQuery => 0x19
  | .loudRestart => 0x1A
  | .delayReserve => 0x1C
  | .delayTarget => 0x1D
  | .delayQuery => 0x1E
  | .poolQuery => 0x1F
  | .alarmConfig => 0x20
  | .alarmQuery => 0x21
  | .alarmAck => 0x22
  | .alarmScan => 0x23

def allKinds : List Kind :=
  [.ident, .restart, .linkStats, .notices, .feedConfig, .feedQuery, .progDefine, .progClear, .setDefine, .progStart,
    .progStop, .progRestart, .progQuery, .sourceSelect, .failoverConfig, .loudConfig, .loudQuery, .loudRestart,
    .delayReserve, .delayTarget, .delayQuery, .poolQuery, .alarmConfig, .alarmQuery, .alarmAck, .alarmScan]

/-- The kind a kind code names, if any. -/
def Kind.ofCode (n : Nat) : Option Kind := allKinds.find? fun k => k.code == n

/-- The query kinds (R150): a broadcast of one is ignored, and none takes the check form. -/
def Kind.isQuery : Kind → Bool
  | .ident | .linkStats | .notices | .feedQuery | .progQuery | .loudQuery | .delayQuery | .poolQuery | .alarmQuery
  | .alarmScan => true
  | _ => false

/-- Whether a body length is one the table of R161 gives for the kind. -/
def Kind.lengthOk (k : Kind) (n : Nat) : Bool :=
  match k with
  | .ident | .restart | .poolQuery => n == 0
  | .feedConfig | .failoverConfig => n == 5
  | .feedQuery | .sourceSelect | .delayReserve => n == 2
  | .progDefine => n == 10
  | .setDefine => n % 2 == 0 && 2 ≤ n && n ≤ 18
  | .loudConfig => n == 25
  | .delayTarget => n == 8
  | .alarmConfig => n == 7
  | .linkStats | .notices | .progClear | .progStart | .progStop | .progRestart | .progQuery | .loudQuery
  | .loudRestart | .delayQuery | .alarmQuery | .alarmAck | .alarmScan => n == 1

/-- What the kind byte of an accepted frame asks for, or nothing where R151's first test refuses it with BAD_KIND: the
reply mark set, an unknown kind code, or the check-form mark on a query kind. -/
def readKind (b : Byte) : Option (Kind × Bool) :=
  if b.getLsbD 7 then none
  else match Kind.ofCode (b.toNat % 64) with
    | none => none
    | some k => if k.isQuery && b.getLsbD 6 then none else some (k, b.getLsbD 6)

def RateClass.code : RateClass → Nat
  | .k32 => 1
  | .k44 => 2
  | .k48 => 3
  | .k88 => 4
  | .k96 => 5

/-- The code of an expected class (0 for AUTO) or of a held class (0 for none). -/
def classCode : Option RateClass → Nat
  | none => 0
  | some c => c.code

/-- The expected class a code names; the outer `none` is a code outside the enumeration. -/
def classOfCode : Nat → Option (Option RateClass)
  | 0 => some none
  | 1 => some (some .k32)
  | 2 => some (some .k44)
  | 3 => some (some .k48)
  | 4 => some (some .k88)
  | 5 => some (some .k96)
  | _ => none

def onOffOfCode : Nat → Option Bool
  | 0 => some false
  | 1 => some true
  | _ => none

def ConvState.code : ConvState → Nat
  | .idle => 0
  | .search => 1
  | .track => 2
  | .locked => 3

def Chan.code : Chan → Nat
  | .a => 0
  | .b => 1

def WeightCode.code : WeightCode → Nat
  | .excluded => 0
  | .unity => 1
  | .surround => 2

def weightOfCode : Nat → Option WeightCode
  | 0 => some .excluded
  | 1 => some .unity
  | 2 => some .surround
  | _ => none

def ProgState.code : ProgState → Nat
  | .undefined => 0
  | .defined => 1
  | .running => 2
  | .stopping => 3

def SwapPhase.code : SwapPhase → Nat
  | .none => 0
  | .fadeOut => 1
  | .fadeIn => 2

def FadeDir.code : FadeDir → Nat
  | .none => 0
  | .fadeIn => 1
  | .fadeOut => 2

def LoudMode.code : LoudMode → Nat
  | .correct => 0
  | .measure => 1
  | .bypass => 2

def modeOfCode : Nat → Option LoudMode
  | 0 => some .correct
  | 1 => some .measure
  | 2 => some .bypass
  | _ => none

def GateVerdict.code : GateVerdict → Nat
  | .none => 0
  | .admitted => 1
  | .notAdmitted => 2

def StepInterval.code : StepInterval → Nat
  | .n64 => 0
  | .n128 => 1
  | .n256 => 2
  | .n512 => 3

def StepInterval.samples : StepInterval → Nat
  | .n64 => 64
  | .n128 => 128
  | .n256 => 256
  | .n512 => 512

def intervalOfCode : Nat → Option StepInterval
  | 0 => some .n64
  | 1 => some .n128
  | 2 => some .n256
  | 3 => some .n512
  | _ => none

def DelayOp.code : DelayOp → Nat
  | .none => 0
  | .slew => 1
  | .cutOut => 2
  | .cutIn => 3

def Severity.code : Severity → Nat
  | .off => 0
  | .info => 1
  | .minor => 2
  | .major => 3

def severityOfCode : Nat → Option Severity
  | 0 => some .off
  | 1 => some .info
  | 2 => some .minor
  | 3 => some .major
  | _ => none

def Action.code : Action → Nat
  | .none => 0
  | .failover => 1

def actionOfCode : Nat → Option Action
  | 0 => some .none
  | 1 => some .failover
  | _ => none

def EntryState.code : EntryState → Nat
  | .clear => 0
  | .rising => 1
  | .active => 2
  | .falling => 3

def ResetCause.code : ResetCause → Nat
  | .power => 0
  | .restart => 1

def NoticeKind.code : NoticeKind → Nat
  | .alarmRaised => 1
  | .alarmCleared => 2
  | .sourceChanged => 3
  | .feedClass => 4
  | .delaySettled => 5
  | .programStopped => 6
  | .restarted => 7

/-- The cause codes of a SOURCE_CHANGED notice; a program's start has none of the swap causes. -/
def causeCode : Option SwapCause → Nat
  | none => 0
  | some .failover => 1
  | some .silence => 2
  | some .return => 3
  | some .select => 4

/-- The line rate the BAUD straps choose, in bits a second (R146). -/
def lineRate (baud : BitVec 2) : Nat :=
  if baud = 0 then 115200 else if baud = 1 then 230400 else if baud = 2 then 460800 else 921600

/-- A rank field, 0xFF for none (R159). -/
def rankByte : Option Rank → List Byte
  | none => [0xFF]
  | some r => byte1 r.val

/-- A signed level field, 0x8000 for none (R159). -/
def levelBytes : Option Int → List Byte
  | none => byte2 0x8000
  | some x => signed2 x

/-! ## Request fields (R151, R159) -/

/-- A feed index (T). -/
def feedIndex (n : Nat) : Except Status FeedId := if h : n < 16 then .ok ⟨n, h⟩ else .error .badTarget

/-- A program index (T). -/
def progIndex (n : Nat) : Except Status ProgId := if h : n < 8 then .ok ⟨n, h⟩ else .error .badTarget

/-- A rank index (T). -/
def rankIndex (n : Nat) : Except Status Rank := if h : n < 4 then .ok ⟨n, h⟩ else .error .badTarget

/-- An entry identifier (T). -/
def entryIndex (n : Nat) : Except Status EntryId := if h : n < 137 then .ok ⟨n, h⟩ else .error .badTarget

/-- An enumeration (E): a code that names nothing is refused with BAD_VALUE. -/
def enumField {α : Type} : Option α → Except Status α
  | none => .error .badValue
  | some x => .ok x

/-- A request field as read from the body and as stored after the clamp of a continuous quantity (C). -/
structure Clamped where
  stored : Int
  adjusted : Bool
  deriving DecidableEq, Repr

/-- A continuous quantity (C): stored as the nearer end of its range where it is outside. -/
def contField (lo hi x : Int) : Clamped := ⟨clampInt lo hi x, decide (x < lo ∨ hi < x)⟩

/-- What a message that passes every test of R151 gives: whether a clamp was made, the reply fields after the status
byte, and the state it leaves. -/
structure Taken where
  adjusted : Bool := false
  fields : List Byte := []
  after : State
  deriving DecidableEq, Repr

def Taken.status (t : Taken) : Status := if t.adjusted then .adjusted else .ok

end Sys2Proof.Machine
end

