-- ==== Sys2Proof/Machine/Flags.lean ====
section
/-! DEFINITION. Conditions and the alarm entries that follow them (08_alarm_table_and_lamp_outputs.md, R131 to R139):
the identifier of each condition, the raise, the release, and the debounce state machine. What a FAILOVER entry hands
to the Failover Controller is reported as a `Handover` and acted on in Failover.lean. -/
namespace Sys2Proof.Machine

def FeedCond.num : FeedCond → Nat
  | .feedLost => 0
  | .rateUnknown => 1
  | .feedErrors => 2
  | .srcUnlocked => 3
  | .srcSlip => 4

def ProgCond.num : ProgCond → Nat
  | .silence => 0
  | .overLevel => 1
  | .ceiling => 2
  | .latencyUnder => 3
  | .latencyOver => 4
  | .noSource => 5
  | .onBackup => 6

theorem FeedCond.num_lt (k : FeedCond) : k.num < 5 := by cases k <;> decide

theorem ProgCond.num_lt (k : ProgCond) : k.num < 7 := by cases k <;> decide

/-- The identifier of condition k of feed f: 5f + k (R131). -/
def feedEntry (f : FeedId) (k : FeedCond) : EntryId :=
  ⟨5 * f.val + k.num, by have := k.num_lt; omega⟩

/-- The identifier of condition k of program p: 80 + 7p + k (R131). -/
def progEntry (p : ProgId) (k : ProgCond) : EntryId :=
  ⟨80 + 7 * p.val + k.num, by have := k.num_lt; omega⟩

/-- The identifier of HOUSE_REF_LOST (R131). -/
def houseRefEntry : EntryId := 136

/-- The source of an entry (R131). -/
def entrySource (e : EntryId) : Source :=
  if h : e.val < 80 then .feed ⟨e.val / 5, by omega⟩
  else if h' : e.val < 136 then .program ⟨(e.val - 80) / 7, by omega⟩
  else .unit

/-- Every feed entry of a feed. -/
def feedConds : List FeedCond := [.feedLost, .rateUnknown, .feedErrors, .srcUnlocked, .srcSlip]

/-- Action FAILOVER is legal on the FEED_LOST, RATE_UNKNOWN, FEED_ERRORS and SRC_UNLOCKED entries of every feed and on
the SILENCE entry of every program (R140). -/
def failoverLegal (e : EntryId) : Bool :=
  if e.val < 80 then e.val % 5 != 4 else e.val < 136 && (e.val - 80) % 7 == 0

/-- The conditions of a feed and of a program, as their owners hold them. -/
def State.feedCond (s : State) (f : FeedId) (k : FeedCond) : Bool := s.cond (feedEntry f k)

def State.progCond (s : State) (p : ProgId) (k : ProgCond) : Bool := s.cond (progEntry p k)

/-- The notice an entry queues unless its severity is OFF (R137, R138, R164). -/
def entryNotice (k : NoticeKind) (e : EntryId) (s : State) : State :=
  let x := s.entry e
  if x.config.severity = .off then s
  else pushNotice k (entrySource e) (byte1 e.val ++ byte1 x.config.severity.code ++ byte1 x.raiseCount) s

/-- An entry's record once raised at a value of the block counter (R137, steps 1 to 3). -/
def Entry.raised (x : Entry) (now : BitVec 32) : Entry :=
  { x with
    state := .active, timer := 0, raiseCount := satAdd 255 x.raiseCount 1, stamp := now
    latched := if x.config.severity = .off then x.latched else true
    acknowledged := if x.config.severity = .off then x.acknowledged else false }

/-- An entry's record once in CLEAR: it unlatches if it is acknowledged (R138). -/
def Entry.cleared (x : Entry) : Entry :=
  { x with state := .clear, timer := 0, latched := x.latched && !x.acknowledged }

/-- The entry is raised (R137, steps 1 to 4). -/
def raiseEntry (e : EntryId) (s : State) : State :=
  entryNotice .alarmRaised e (s.setEntry e ((s.entry e).raised s.blockCounter))

/-- The entry leaves FALLING for CLEAR: it is released (R138). -/
def releaseEntry (e : EntryId) (s : State) : State :=
  entryNotice .alarmCleared e (s.setEntry e (s.entry e).cleared)

/-- What an entry hands to its neighbour (R140). -/
inductive Handover where
  | none | raised | released
  deriving DecidableEq, Repr

/-- An entry acts on its condition becoming true (R134). -/
def conditionTrue (e : EntryId) (s : State) : State × Handover :=
  let x := s.entry e
  match x.state with
  | .clear =>
    if x.config.raiseDelay = 0 then (raiseEntry e s, .raised)
    else (s.setEntry e { x with state := .rising, timer := x.config.raiseDelay }, .none)
  | .falling => (s.setEntry e { x with state := .active, timer := 0 }, .none)
  | .rising => (s, .none)
  | .active => (s, .none)

/-- An entry acts on its condition becoming false (R134). -/
def conditionFalse (e : EntryId) (s : State) : State × Handover :=
  let x := s.entry e
  match x.state with
  | .rising => (s.setEntry e x.cleared, .none)
  | .active =>
    if x.config.clearDelay = 0 then (releaseEntry e s, .released)
    else (s.setEntry e { x with state := .falling, timer := x.config.clearDelay }, .none)
  | .clear => (s, .none)
  | .falling => (s, .none)

/-- The owner of a condition gives it a value. A value it already has is no change; a change reaches the entry at once
(R131, R134). -/
def follow (e : EntryId) (v : Bool) (s : State) : State × Handover :=
  if s.cond e = v then (s, .none)
  else if v then conditionTrue e (s.setCondBit e v) else conditionFalse e (s.setCondBit e v)

/-- A condition whose entry hands nothing over takes a value. -/
def followQuiet (e : EntryId) (v : Bool) (s : State) : State := (follow e v s).1

/-- The timer of one entry counts at a block close (R135). -/
def countTimer (e : EntryId) (s : State) : State :=
  let x := s.entry e
  match x.state with
  | .rising => s.setEntry e { x with timer := x.timer - 1 }
  | .falling => s.setEntry e { x with timer := x.timer - 1 }
  | .clear => s
  | .active => s

/-- The timer of an entry in RISING has run out: the raise is due (R135). -/
def raiseIsDue (s : State) (e : EntryId) : Bool := (s.entry e).state == .rising && (s.entry e).timer == 0

/-- The timer of an entry in FALLING has run out: the release is due (R135). -/
def clearIsDue (s : State) (e : EntryId) : Bool := (s.entry e).state == .falling && (s.entry e).timer == 0

end Sys2Proof.Machine
end

