-- ==== Sys2Proof/Machine/Failover.lean ====
section
/-! DEFINITION. The Failover Controller (04_failover_and_the_source_stack.md): feed health (R62), eligibility (R63),
NO_SOURCE (R76), the start of a swap (R65), the feed and silence triggers (R70, R71), the silence-suspect marks (R72),
and what a FAILOVER entry hands over (R140). -/
namespace Sys2Proof.Machine

/-! ## Reading a program record -/

/-- The current rank: the top of the source stack (section 3.1). -/
def Program.currentRank (g : Program) : Option Rank := g.stack.getLast?

/-- The return set's rank: just below the top of the stack (section 4.3). -/
def Program.returnRank (g : Program) : Option Rank := g.stack.dropLast.getLast?

/-- The set of a rank, or absent. -/
def Program.setAt (g : Program) (r : Rank) : Option (List SlotSource) := g.sets[r.val]

def Program.markAt (g : Program) (r : Rank) : Bool := g.marks[r.val]

def Program.withMark (g : Program) (r : Rank) (v : Bool) : Program := { g with marks := g.marks.set r.val v }

/-- The entries of the current set; none while the stack is empty. -/
def Program.currentSet (g : Program) : List SlotSource :=
  match g.currentRank with
  | none => []
  | some r => (g.setAt r).getD []

/-- RUNNING or STOPPING: the signal path runs and the controller measures (R43, R81). -/
def Program.active (g : Program) : Bool := g.state == .running || g.state == .stopping

def Program.running (g : Program) : Bool := g.state == .running

/-- A swap is in flight (R65). -/
def Program.swapping (g : Program) : Bool := g.swap.phase != .none

/-- The set names the feed in at least one entry. -/
def setNames (l : List SlotSource) (f : FeedId) : Bool := l.any fun x => x.feed == f

/-- Some defined set of the program names the feed. -/
def Program.namesFeed (g : Program) (f : FeedId) : Bool :=
  allRanks.any fun r => match g.setAt r with
    | none => false
    | some l => setNames l f

/-! ## Health and eligibility -/

/-- The test of R62 on a feed's enable and its FAILOVER entries. -/
def healthTest (s : State) (f : FeedId) : Bool :=
  (s.feed f).port.enable &&
    feedConds.all fun k =>
      let x := s.entry (feedEntry f k)
      !(x.config.action == .failover && (x.state == .active || x.state == .falling))

/-- Every feed of a set is healthy. -/
def setHealthy (s : State) (l : List SlotSource) : Bool := l.all fun x => (s.feed x.feed).healthy

/-- The rank is defined and all of its feeds are healthy. -/
def rankHealthy (s : State) (g : Program) (r : Rank) : Bool :=
  match g.setAt r with
  | none => false
  | some l => setHealthy s l

/-- The rank's set is eligible: defined, healthy, and not silence-suspect (R63). -/
def eligible (s : State) (g : Program) (r : Rank) : Bool := rankHealthy s g r && !g.markAt r

/-- The lowest-rank eligible set (R66). -/
def lowestEligible (s : State) (g : Program) : Option Rank := allRanks.find? (eligible s g)

def currentEligible (s : State) (g : Program) : Bool :=
  match g.currentRank with
  | none => false
  | some r => eligible s g r

def returnEligible (s : State) (g : Program) : Bool :=
  match g.returnRank with
  | none => false
  | some r => eligible s g r

/-- The statement NO_SOURCE makes (R76): the program runs or stops, its current set is not eligible, and no defined set
of it is eligible. -/
def noSourceTest (s : State) (g : Program) : Bool :=
  g.active && !currentEligible s g && (lowestEligible s g).isNone

/-! ## Starting a swap -/

/-- FADE_OUT begins from the present fade level, with its cause, the current rank as origin, and the selected rank of a
select swap (R65, R70, R71, R76). -/
def Program.startFadeOut (g : Program) (cause : SwapCause) (selected : Option Rank) : Program :=
  { g with
    swap := { g.swap with phase := .fadeOut, cause := some cause, origin := g.currentRank, selected := selected }
    returnFell := false }

/-- The return timer becomes 0 (R73). -/
def Program.zeroReturn (g : Program) : Program := { g with returnTimer := 0, returnFell := false }

/-- A trigger of R70 or a release of R76 reaches a program by its swap phase: a swap begins, a new FADE_OUT begins, or
nothing is done in FADE_OUT. -/
def Program.triggered (g : Program) (cause : SwapCause) : Program :=
  match g.swap.phase with
  | .none => g.startFadeOut cause none
  | .fadeOut => g
  | .fadeIn => g.startFadeOut cause none

/-! ## Eligibility events -/

/-- NO_SOURCE is judged by R76 and its entry follows. -/
def judgeNoSource (p : ProgId) (s : State) : State :=
  followQuiet (progEntry p .noSource) (noSourceTest s (s.prog p)) s

/-- An eligibility event that leaves the return set of a RUNNING program not eligible zeroes its return timer (R73). -/
def judgeReturnSet (p : ProgId) (s : State) : State :=
  if (s.prog p).running && !returnEligible s (s.prog p) then s.onProg p Program.zeroReturn else s

/-- NO_SOURCE has become false because another set became eligible, and the current set did not: a failover swap begins
on a RUNNING program (R76). -/
def noSourceRelease (p : ProgId) (was : Bool) (s : State) : State :=
  let g := s.prog p
  if was && !s.progCond p .noSource && g.running && !currentEligible s g then
    s.onProg p (·.triggered .failover)
  else s

/-- An eligibility event of a RUNNING or STOPPING program (R63). -/
def eligibilityEvent (p : ProgId) (s : State) : State :=
  if (s.prog p).active then
    noSourceRelease p (s.progCond p .noSource) (judgeReturnSet p (judgeNoSource p s))
  else s

/-! ## Feed health -/

/-- A feed trigger reaches one program: RUNNING, its current set naming the feed, and NO_SOURCE not already true before
the trigger (R70). -/
def feedTrigger (f : FeedId) (noSourceBefore : Bool) (p : ProgId) (s : State) : State :=
  let g := s.prog p
  if g.running && setNames g.currentSet f && !noSourceBefore then s.onProg p (·.triggered .failover) else s

/-- A health change of a feed reaches one program: an eligibility event where a set of it names the feed (R63), and a
feed trigger where the feed turned unhealthy (R70). -/
def healthReaches (f : FeedId) (p : ProgId) (s : State) : State :=
  let before := s.progCond p .noSource
  let s1 := if (s.prog p).namesFeed f then eligibilityEvent p s else s
  if (s.feed f).healthy then s1 else feedTrigger f before p s1

/-- The feed is judged again as healthy or unhealthy (R62). -/
def judgeHealth (f : FeedId) (s : State) : State :=
  let h := healthTest s f
  if (s.feed f).healthy = h then s
  else forEach allProgs (healthReaches f) (s.setFeed f { s.feed f with healthy := h })

/-! ## Silence -/

/-- A rank's silence-suspect mark is set or cleared, which is an eligibility event (R72). -/
def setMark (p : ProgId) (r : Rank) (v : Bool) (s : State) : State :=
  eligibilityEvent p (s.onProg p (·.withMark r v))

/-- A rank that may be none is marked silence-suspect. -/
def markSuspect (p : ProgId) (r : Option Rank) (s : State) : State :=
  match r with
  | none => s
  | some r => setMark p r true s

/-- During FADE_OUT a silence raise turns a failover swap's cause into SILENCE; a return or select swap keeps its cause
(R71). -/
def Program.silencedFadeOut (g : Program) : Program :=
  if g.swap.cause = some .failover then { g with swap := { g.swap with cause := some .silence } } else g

/-- The raise of a SILENCE entry with action FAILOVER reaches its program (R71). It reaches a RUNNING program only. -/
def silenceTrigger (p : ProgId) (s : State) : State :=
  let g := s.prog p
  let before := s.progCond p .noSource
  if !g.running then s
  else match g.swap.phase with
    | .none =>
      let s1 := markSuspect p g.currentRank s
      if before then s1 else s1.onProg p (·.startFadeOut .silence none)
    | .fadeOut => (markSuspect p g.swap.origin s).onProg p Program.silencedFadeOut
    | .fadeIn =>
      let s1 := markSuspect p g.swap.origin s
      if g.swap.origin = g.currentRank && !before then s1.onProg p (·.startFadeOut .silence none) else s1

/-! ## What an entry hands over (R140) -/

/-- A raise or release of an entry whose action is FAILOVER reaches the Failover Controller: a health event of its
feed, or, for the raise of a SILENCE entry, a silence trigger of its program. -/
def handOver (e : EntryId) (h : Handover) (s : State) : State :=
  if (s.entry e).config.action = .failover then
    match h, entrySource e with
    | .none, _ => s
    | _, .feed f => judgeHealth f s
    | .raised, .program p => if e = progEntry p .silence then silenceTrigger p s else s
    | .released, .program _ => s
    | _, .unit => s
  else s

/-- The owner of a condition gives it a value, its entry follows (R134), and what the entry hands over is acted on
(R140). -/
def setCond (e : EntryId) (v : Bool) (s : State) : State :=
  handOver e (follow e v s).2 (follow e v s).1

def setFeedCond (f : FeedId) (k : FeedCond) (v : Bool) (s : State) : State := setCond (feedEntry f k) v s

def setProgCond (p : ProgId) (k : ProgCond) (v : Bool) (s : State) : State := setCond (progEntry p k) v s

/-- The raise of an entry whose raise delay has run out (R135, R137). -/
def expireRaise (e : EntryId) (s : State) : State :=
  if raiseIsDue s e then handOver e .raised (raiseEntry e s) else s

/-- The release of an entry whose clear delay has run out (R135, R138). -/
def expireClear (e : EntryId) (s : State) : State :=
  if clearIsDue s e then handOver e .released (releaseEntry e s) else s

/-- ON_BACKUP is judged by R77. -/
def judgeOnBackup (p : ProgId) (s : State) : State :=
  let g := s.prog p
  setProgCond p .onBackup (g.active && (match g.currentRank with
    | none => false
    | some r => r != 0)) s

end Sys2Proof.Machine
end

