-- ==== Sys2Proof/Machine/Delay.lean ====
section
/-! DEFINITION. Alignment values (R57), the latency equation and its conditions (R118, R119), the delay operations
(R121 to R127), the rings of the Delay Store (R114, R116, R117), and the page pool (R113, R115). -/
namespace Sys2Proof.Machine

/-! ## Alignment (R38, R57) -/

/-- L_src of a held class; 34 for a converter with no class (R38). -/
def lsrc : Option RateClass → Nat
  | none => 34
  | some .k32 => 50
  | some .k44 => 37
  | some .k48 => 34
  | some .k88 => 19
  | some .k96 => 18

/-- The slot latency of one entry of a set (R57). -/
def slotLatency (s : State) (x : SlotSource) : Nat := lsrc (s.feed x.feed).conv.cls

def listMax (l : List Nat) : Nat := l.foldl max 0

/-- The slot latencies of the program's current set. -/
def latencies (s : State) (g : Program) : List Nat := g.currentSet.map (slotLatency s)

/-- L_src_max of the current set (R57). -/
def lsrcMax (s : State) (g : Program) : Nat := listMax (latencies s g)

/-- The trim of every slot of the current set (R57). -/
def trims (s : State) (g : Program) : List Nat := (latencies s g).map (lsrcMax s g - ·)

/-- trim_max of the current set (R57). -/
def trimMax (s : State) (g : Program) : Nat := listMax (trims s g)

/-! ## The latency equation (R118) -/

/-- Samples in one slot's ring (R114). -/
def DelayRec.ringSize (d : DelayRec) : Nat := d.reserve * Config.pageSamples

/-- The wanted delay: Ltgt − L_src_max − 48 (R118). -/
def wantedDelay (s : State) (g : Program) : Int := (g.delay.ltgt : Int) - lsrcMax s g - 48

/-- The ring bound: P × 1,024 − trim_max − 1 (R118). -/
def ringBound (s : State) (g : Program) : Int := (g.delay.ringSize : Int) - trimMax s g - 1

/-- The wanted delay clamped to 0 to the ring bound (R118). -/
def delayTargetOf (s : State) (g : Program) : Nat := (clampInt 0 (ringBound s g) (wantedDelay s g)).toNat

/-- |Dtgt − Dcur|. -/
def DelayRec.distance (d : DelayRec) : Nat := (d.dtgt - d.dcur) + (d.dcur - d.dtgt)

/-! ## Delay operations -/

/-- A SLEW step begins: progress 0, its direction, and the N now in force (R121). -/
def DelayRec.beginStep (d : DelayRec) : DelayRec :=
  { d with op := .slew, progress := 0, dir := if d.dcur < d.dtgt then .up else .down, stepInterval := d.interval }

/-- A CUT begins with CUT_OUT; a start fade-in in progress is ended (R52, R123). -/
def Program.beginCut (g : Program) : Program :=
  { g with delay := { g.delay with op := .cutOut, progress := 0 }, outDir := .none }

/-- With no operation in flight, one is chosen by the distance to the target (R122). -/
def Program.chooseOp (g : Program) : Program :=
  if g.delay.distance = 0 then { g with delay := { g.delay with op := .none, progress := 0 } }
  else if g.delay.distance ≤ g.delay.slewLimit then { g with delay := g.delay.beginStep }
  else g.beginCut

/-- The operation is over (R126, R127). -/
def DelayRec.noOp (d : DelayRec) : DelayRec := { d with op := .none, progress := 0 }

/-- A re-target reaches a RUNNING program by its operation in flight (R122, R124). -/
def Program.retarget (g : Program) : Program :=
  match g.delay.op with
  | .none => g.chooseOp
  | .slew => if g.delay.distance ≤ g.delay.slewLimit then g else g.beginCut
  | .cutOut => g
  | .cutIn => g

/-- Dcur has been clamped to a lowered ring bound; the operation in flight goes on from it (R125). -/
def Program.afterClamp (g : Program) : Program :=
  match g.delay.op with
  | .none => g.chooseOp
  | .slew => g.chooseOp
  | .cutOut => g
  | .cutIn => g

/-- An operation settles with Dcur in its notice (R126). -/
def settleNotice (p : ProgId) (s : State) : State :=
  pushNotice .delaySettled (.program p) (byte4 (s.prog p).delay.dcur) s

/-- Both latency conditions are judged (R119). -/
def judgeLatency (p : ProgId) (s : State) : State :=
  let g := s.prog p
  setProgCond p .latencyOver (decide (ringBound s g < wantedDelay s g))
    (setProgCond p .latencyUnder (decide (wantedDelay s g < 0)) s)

/-- The new Dtgt is stored, Dcur is clamped to the ring bound (R125), and, on a RUNNING program, the re-target or the
clamp is acted on. A SLEW that a clamp leaves at its target settles (R126). -/
def moveTarget (p : ProgId) (s : State) : State :=
  let g := s.prog p
  let t := delayTargetOf s g
  let bound := (ringBound s g).toNat
  let g1 : Program := { g with delay := { g.delay with dtgt := t, dcur := min g.delay.dcur bound } }
  if !g.running then s.setProg p g1
  else if bound < g.delay.dcur then
    let s1 := s.setProg p g1.afterClamp
    if g.delay.op = .slew && g1.delay.distance = 0 then settleNotice p s1 else s1
  else if t = g.delay.dtgt then s.setProg p g1
  else s.setProg p g1.retarget

/-- Dtgt of a RUNNING or STOPPING program is recomputed and the latency conditions are judged (R118, R119), and the
operation rules act (R122, R124, R125). -/
def recomputeDelay (p : ProgId) (s : State) : State :=
  if (s.prog p).active then moveTarget p (judgeLatency p s) else s

/-- A flush of the rings (R116). -/
def DelayRec.flush (d : DelayRec) : DelayRec := { d with writePos := 0, flushCounter := 0 }

/-- At PROG_START and PROG_RESTART the rings are flushed, Dtgt is computed, Dcur is set equal to it and no operation is
in flight (R51, R55, R118). -/
def startDelay (p : ProgId) (s : State) : State :=
  let s1 := judgeLatency p s
  let g := s1.prog p
  let t := delayTargetOf s1 g
  s1.setProg p { g with delay := { g.delay.flush.noOp with dtgt := t, dcur := t } }

/-- A SLEW step has run to its interval (R121). A step up that a ring bound lowered to Dcur has overtaken leaves Dcur at
the bound (R125; log 29). -/
def slewComplete (p : ProgId) (s : State) : State :=
  let g := s.prog p
  let d := g.delay
  let there := match d.dir with
    | .up => min (d.dcur + 1) (ringBound s g).toNat
    | .down => d.dcur - 1
  let moved : DelayRec := { d with dcur := there, progress := 0 }
  if moved.distance = 0 then settleNotice p (s.setProg p { g with delay := moved.noOp })
  else s.setProg p { g with delay := moved.beginStep }

/-- A SLEW step is complete and not yet acted on. -/
def slewIsDue (s : State) (p : ProgId) : Bool :=
  let d := (s.prog p).delay
  d.op == .slew && d.stepInterval.samples ≤ d.progress

/-- The CUT_OUT fade has reached level 0 (R123). -/
def cutJumpIsDue (s : State) (p : ProgId) : Bool :=
  (s.prog p).delay.op == .cutOut && (s.prog p).outLevel == 0

/-- The jump of Dcur at the foot of a CUT (R123). -/
def cutJump (p : ProgId) (s : State) : State :=
  s.onProg p fun g => { g with delay := { g.delay with dcur := g.delay.dtgt, progress := 0, op := .cutIn } }

/-- The CUT_IN fade has reached level 480 (R123). -/
def cutInIsDue (s : State) (p : ProgId) : Bool :=
  (s.prog p).delay.op == .cutIn && (s.prog p).outLevel == Config.fadeFull

/-- The end of CUT_IN: the CUT settles, or a new operation is chosen (R124). -/
def cutInEnd (p : ProgId) (s : State) : State :=
  let g := s.prog p
  let g1 : Program := { g with delay := g.delay.noOp }
  if g.delay.distance = 0 then settleNotice p (s.setProg p g1) else s.setProg p g1.chooseOp

/-! ## Rings (R114, R116, R117) -/

/-- The address in the Delay Store of position x of slot k's ring (R114). -/
def DelayRec.address (d : DelayRec) (k x : Nat) : Nat :=
  d.chain.getD (k * d.reserve + x / Config.pageSamples) 0 * Config.pageSamples + x % Config.pageSamples

/-- The sample of slot k's ring written `back` output samples before the write position, 0 where the position has not
been written since the flush (R117). -/
def DelayRec.ringRead (d : DelayRec) (m : Memory) (k back : Nat) : Rat :=
  if d.flushCounter ≤ back then 0
  else m.read (d.address k ((d.writePos + d.ringSize - back) % d.ringSize))

/-- The sample read for slot k with its trim: at a whole delay, or, during a SLEW step, the straight-line blend of the
two neighbouring whole delays (R117, R121). -/
def DelayRec.readSlot (d : DelayRec) (m : Memory) (k trim : Nat) : Rat :=
  let here := d.ringRead m k (d.dcur + trim)
  if d.op = .slew then
    let next := match d.dir with
      | .up => d.dcur + trim + 1
      | .down => d.dcur + trim - 1
    let part : Rat := (d.progress : Rat) / (d.stepInterval.samples : Rat)
    here * (1 - part) + d.ringRead m k next * part
  else here

/-- One sample is written at the write position of each slot's ring, slots from k on (R116). -/
def DelayRec.writeSlots (d : DelayRec) (k : Nat) : List Rat → Memory → Memory
  | [], m => m
  | x :: xs, m => d.writeSlots (k + 1) xs (m.write (d.address k d.writePos) x)

/-- The flush counter after a sample is written (R116). -/
def DelayRec.countWritten (d : DelayRec) : DelayRec :=
  { d with flushCounter := satAdd d.ringSize d.flushCounter 1 }

/-- The write position advances, from the last ring position back to 0 (R116). -/
def DelayRec.advance (d : DelayRec) : DelayRec :=
  { d with writePos := if d.writePos + 1 < d.ringSize then d.writePos + 1 else 0 }

/-! ## The page pool (R113, R115) -/

/-- The program's chain joins the tail of the free list, its reserve becomes 0, and its rings are flushed (R113, R116:
PROG_DEFINE and PROG_CLEAR). -/
def returnPages (p : ProgId) (s : State) : State :=
  let g := s.prog p
  { s.setProg p { g with delay := { g.delay.flush with reserve := 0, chain := [] } } with
    freePages := s.freePages ++ g.delay.chain }

/-- The room of a DELAY_RESERVE: the free list and the pages the program holds (R115). -/
def pageRoom (s : State) (p : ProgId) : Nat := s.freePages.length + (s.prog p).delay.chain.length

/-- The chain of the program is rebuilt with a new reserve: its pages join the tail of the free list, c × P pages are
taken from the head, and the rings are flushed (R115). -/
def rebuildChain (p : ProgId) (reserve : Nat) (s : State) : State :=
  let g := s.prog p
  let pool := s.freePages ++ g.delay.chain
  let need := g.slots * reserve
  { s.setProg p { g with delay := { g.delay.flush with reserve := reserve, chain := pool.take need } } with
    freePages := pool.drop need }

end Sys2Proof.Machine
end

