-- ==== Sys2Proof/Machine/Converter.lean ====
section
/-! DEFINITION. The rate converters (02_rate_converters.md): the FIFO (R23, R35), class setting and change (R24 to
R26), step, ratio and lock (R28 to R31), the phase accumulator, interpolation and underflow (R32 to R34), and the class
event (R27). -/
namespace Sys2Proof.Machine

/-- Fill: the number of frames in the FIFO. -/
def Converter.fill (c : Converter) : Nat := c.fifo.length

/-- The fields that every entry into IDLE or SEARCH clears; the slip count is kept (R21, R22). -/
def Converter.cleared (c : Converter) (st : ConvState) : Converter := { state := st, slipCount := c.slipCount }

/-- Entry into IDLE (R21). -/
def Converter.enterIdle (c : Converter) : Converter := c.cleared .idle

/-- Entry into SEARCH (R22). A converter already in SEARCH holds the same values. -/
def Converter.enterSearch (c : Converter) : Converter := c.cleared .search

/-- The step m of a span of S ticks (R28). -/
def stepOf (S : Nat) : Nat := (2 ^ 35 + S / 2) / S

/-- The step used: U = R + 128 × (fill − 16) (R31). -/
def stepUsedOf (ratio fill : Nat) : Nat := ((ratio : Int) + 128 * ((fill : Int) - 16)).toNat

/-- A span sets or changes the class (R24, R25). -/
def Converter.setClass (c : Converter) (k : RateClass) (S : Nat) : Converter :=
  { state := .track, cls := some k, ratio := stepOf S, stepUsed := stepUsedOf (stepOf S) 0, refillWait := true
    slipCount := c.slipCount }

/-- The ratio estimate after a span with step m: R + floor((m − R + 8) / 16) (R29). -/
def updatedRatio (ratio m : Nat) : Nat := ((ratio : Int) + ((m : Int) - ratio + 8) / 16).toNat

/-- |m − R|. -/
def stepDistance (m ratio : Nat) : Nat := (m - ratio) + (ratio - m)

/-- The lock and unlock tests, with R as it stood before the update (R30). -/
def Converter.lockTest (c : Converter) (d : Nat) : Converter :=
  match c.state with
  | .track =>
    if d ≤ 128 then
      if 8 ≤ c.lockRun + 1 then { c with lockRun := 8, state := .locked, unlockRun := 0 }
      else { c with lockRun := c.lockRun + 1 }
    else { c with lockRun := 0 }
  | .locked =>
    if d ≤ 1024 then { c with unlockRun := 0 }
    else if 2 ≤ c.unlockRun + 1 then { c with unlockRun := 2, state := .track, lockRun := 0 }
    else { c with unlockRun := c.unlockRun + 1 }
  | .idle => c
  | .search => c

/-- A span of the held class: the lock tests, then the ratio estimate and the step used (R29 to R31). -/
def Converter.heldSpan (c : Converter) (S : Nat) : Converter :=
  let m := stepOf S
  let r := updatedRatio c.ratio m
  { c.lockTest (stepDistance m c.ratio) with ratio := r, stepUsed := stepUsedOf r c.fill }

/-- The converter is handed a span: its ticks with the matched class, or no match (R24 to R26). A converter in IDLE is
handed none. -/
def Converter.takeSpan (c : Converter) (S : Nat) (verdict : Option RateClass) : Converter :=
  match c.state, verdict with
  | .idle, _ => c
  | .search, none => c
  | .search, some k => c.setClass k S
  | _, none => c.enterSearch
  | _, some k => if c.cls = some k then c.heldSpan S else c.setClass k S

/-- A slip is counted (R36); SRC_SLIP is set by the caller. -/
def Converter.countSlip (c : Converter) : Converter :=
  { c with slipCount := satAdd Config.counterLimit c.slipCount 1 }

/-- An input frame reaches the converter: the converter after it, and whether it slipped (R23, R33, R35). -/
def Converter.takeFrame (c : Converter) (fr : InFrame) : Converter × Bool :=
  match c.state with
  | .idle => (c, false)
  | .search => (c, false)
  | _ =>
    if 32 ≤ c.fill then (({ c with fifo := c.fifo.drop 16 } : Converter).countSlip, true)
    else ({ c with fifo := c.fifo ++ [fr], refillWait := c.refillWait && decide (c.fill + 1 < 16) }, false)

/-- A frame joins the filter history as its newest (R32). How many the interpolator keeps is not given. -/
def Converter.remember (c : Converter) (fr : InFrame) : Converter :=
  { c with history := (fr :: c.history).take (Config.historyExtra + 1) }

/-- The converter consumes k frames, or underflows at the first one missing; the flag says whether it slipped (R32,
R34). -/
def Converter.consume : Nat → Converter → Converter × Bool
  | 0, c => (c, false)
  | k + 1, c =>
    match c.fifo with
    | fr :: rest => Converter.consume k (({ c with fifo := rest, lastConsumed := some fr } : Converter).remember fr)
    | [] => ((({ c with refillWait := true } : Converter).remember (c.lastConsumed.getD {})).countSlip, true)

/-- The value of a 24-bit sample relative to full scale. -/
def sampleValue (x : Sample) : Rat := (x.toInt : Rat) / 8388608

/-- The interpolator's output from one channel of the filter history and a sub-filter. The filter is one fixed function
of the samples it works on, zeros where a frame has not joined since the clear, and of the sub-filter; its coefficients
are not given (R32). A history of zeros alone gives zero (R33; log 3). -/
def interpolated (history : List Sample) (sub : Nat) : Rat :=
  if history.all (· == 0) then 0 else Config.interpolate (padTo (Config.historyExtra + 1) 0 history) sub

/-- The sub-filter index of a phase fraction (R32). -/
def subFilter (phase : Nat) : Nat := phase / 16384

/-- The frame a converter delivers: zeros in IDLE and SEARCH, else the interpolator's output (R20, R33). -/
def Converter.delivered (c : Converter) : Rat × Rat :=
  match c.state with
  | .idle => (0, 0)
  | .search => (0, 0)
  | _ => (interpolated (c.history.map (·.a)) (subFilter c.phase), interpolated (c.history.map (·.b)) (subFilter c.phase))

/-- One output sample of a converter: the phase accumulator advances unless a refill wait holds it, and whether it
slipped (R32 to R34). -/
def Converter.advance (c : Converter) : Converter × Bool :=
  match c.state with
  | .idle => (c, false)
  | .search => (c, false)
  | _ =>
    if c.refillWait then (c, false)
    else
      let sum := c.phase + c.stepUsed
      Converter.consume (sum / 2 ^ 20) { c with phase := sum % 2 ^ 20 }

/-! ## The converter within the unit -/

/-- The alignment values and the delay target of every program whose current set uses the feed are computed again
(R27, R58). -/
def realign (f : FeedId) (p : ProgId) (s : State) : State :=
  if (s.prog p).active && setNames (s.prog p).currentSet f then recomputeDelay p s else s

/-- A class event: its FEED_CLASS notice, then the programs that use the feed (R27). -/
def classEvent (f : FeedId) (was now : Option RateClass) (s : State) : State :=
  forEach allProgs (realign f)
    (pushNotice .feedClass (.feed f) (byte1 (classCode was) ++ byte1 (classCode now)) s)

/-- The converter takes a new value; SRC_UNLOCKED is true exactly in TRACK (R37), and a change of the held class is
announced (R27). -/
def changeConverter (f : FeedId) (c : Converter) (s : State) : State :=
  let was := (s.feed f).conv.cls
  let s1 := setFeedCond f .srcUnlocked (c.state == .track) (s.setFeed f { s.feed f with conv := c })
  if was = c.cls then s1 else classEvent f was c.cls s1

/-- The converter takes a value that changes neither its state nor its class; a slip makes SRC_SLIP true (R36). -/
def keepConverter (f : FeedId) (r : Converter × Bool) (s : State) : State :=
  let s1 := s.setFeed f { s.feed f with conv := r.1 }
  if r.2 then setFeedCond f .srcSlip true s1 else s1

end Sys2Proof.Machine
end

