-- ==== Sys2Proof/Machine/FeedPort.lean ====
section
/-! DEFINITION. The feed ports (01_feed_ports.md): judgement and concealment of subframes (R7 to R11), frames (R1, R2),
loss of the feed (R12 to R14), span measurement (R15 to R17), and the configuration's effects (R4 to R6). -/
namespace Sys2Proof.Machine

/-! ## Checking and concealment -/

/-- The 32 bits hold an odd number of ones (R7). -/
def oddOnes (w : BitVec 32) : Bool := (List.range 32).foldl (fun odd i => odd ^^ w.getLsbD i) false

/-- The sample in bits 31 to 8 of a subframe. -/
def subframeSample (w : BitVec 32) : Sample := w.extractLsb' 8 24

/-- A complete subframe is bad under the port's settings (R7). -/
def Port.judgedBad (q : Port) (w : BitVec 32) : Bool :=
  (q.parityCheck && oddOnes w) || (q.honourValidity && !w.getLsbD 7)

/-- A channel acts on a good subframe with its sample, and the sample it delivers (R8, R9). -/
def Channel.takeGood (c : Channel) (x : Sample) : Channel × Sample :=
  if c.muted then
    if 64 ≤ c.goodRun + 1 then ({ c with badRun := 0, goodRun := 0, muted := false, lastGood := x }, x)
    else ({ c with goodRun := c.goodRun + 1, lastGood := x }, 0)
  else ({ c with badRun := 0, lastGood := x }, x)

/-- A channel acts on a bad subframe, and the sample it delivers (R8, R9, R11). -/
def Channel.takeBad (c : Channel) : Channel × Sample :=
  if c.muted then ({ c with goodRun := 0 }, 0)
  else if c.badRun < 4 then
    ({ c with badRun := c.badRun + 1, concealCount := satAdd Config.counterLimit c.concealCount 1 }, c.lastGood)
  else
    ({ c with badRun := 5, muted := true, goodRun := 0, muteCount := satAdd Config.counterLimit c.muteCount 1 }, 0)

/-- A channel acts on a subframe: `none` is an incomplete one, which is bad under every setting (R2, R7). -/
def Channel.take (c : Channel) (q : Port) (w : Option (BitVec 32)) : Channel × Sample :=
  match w with
  | none => c.takeBad
  | some w => if q.judgedBad w then c.takeBad else c.takeGood (subframeSample w)

/-- The concealment state without the last good sample and the two counters (R5). -/
def Channel.unmuted (c : Channel) : Channel := { c with badRun := 0, muted := false, goodRun := 0 }

/-- The clean concealment state that keeps the two counters (R4, R13). -/
def Channel.clean (c : Channel) : Channel := { c.unmuted with lastGood := 0 }

/-- FEED_ERRORS is true while a channel of the feed is muted (R10). -/
def judgeFeedErrors (f : FeedId) (s : State) : State :=
  setFeedCond f .feedErrors ((s.feed f).port.chA.muted || (s.feed f).port.chB.muted) s

/-- Subframe A of the frame in progress is judged and acted on (R7 to R10). -/
def takeSubframeA (f : FeedId) (w : Option (BitVec 32)) (s : State) : State :=
  let q := (s.feed f).port
  let r := q.chA.take q w
  judgeFeedErrors f (s.onPort f fun q => { q with chA := r.1, frame := .gotA r.2 })

/-- An input frame is handed to the converter (R2, R23). -/
def handFrame (f : FeedId) (fr : InFrame) (s : State) : State :=
  keepConverter f ((s.feed f).conv.takeFrame fr) s

/-- Subframe B is judged and acted on, and the frame is handed over (R2, R7 to R10). `a` is the A sample delivered. -/
def takeSubframeB (f : FeedId) (a : Sample) (w : Option (BitVec 32)) (s : State) : State :=
  let q := (s.feed f).port
  let r := q.chB.take q w
  handFrame f ⟨a, r.2⟩ (judgeFeedErrors f (s.onPort f fun q => { q with chB := r.1, frame := .handed }))

/-- The 32 bits of a subframe have been received. Bits of a disabled port, bits that belong to no frame and bits after
the 64th are ignored (R1). -/
def subframeReceived (f : FeedId) (w : BitVec 32) (s : State) : State :=
  if (s.feed f).port.enable then
    match (s.feed f).port.frame with
    | .none => s
    | .opened => takeSubframeA f (some w) s
    | .gotA a => takeSubframeB f a (some w) s
    | .handed => s
  else s

/-- The frame edge ends the frame in progress: each subframe still missing bits is judged bad, then the frame is handed
over (R2). -/
def endFrame (f : FeedId) (s : State) : State :=
  match (s.feed f).port.frame with
  | .none => s
  | .opened =>
    let s1 := takeSubframeA f none s
    match (s1.feed f).port.frame with
    | .gotA a => takeSubframeB f a none s1
    | _ => s1
  | .gotA a => takeSubframeB f a none s
  | .handed => s

/-! ## Loss timer (R12) -/

/-- The loss timeout of a held class, in master ticks (R12). -/
def lossTimeoutOf : Option RateClass → Nat
  | none => 3072
  | some .k32 => 3072
  | some .k44 => 2229
  | some .k48 => 2048
  | some .k88 => 1115
  | some .k96 => 1024

/-- The loss timer restarts at 0 with the timeout of the class now held (R12). -/
def restartLossTimer (f : FeedId) (s : State) : State :=
  let t := lossTimeoutOf (s.feed f).conv.cls
  s.onPort f fun q => { q with lossTimer := some 0, lossTimeout := t }

/-! ## Span measurement (R15 to R17) -/

/-- The window of a class, both ends included (R16). -/
def RateClass.window : RateClass → Nat × Nat
  | .k32 => (48661, 49643)
  | .k44 => (35309, 36021)
  | .k48 => (32441, 33095)
  | .k88 => (17655, 18010)
  | .k96 => (16221, 16547)

def allClasses : List RateClass := [.k32, .k44, .k48, .k88, .k96]

/-- A class's window is open under the expected class and holds the span (R16). -/
def RateClass.matches (k : RateClass) (expected : Option RateClass) (S : Nat) : Bool :=
  (expected == none || expected == some k) && k.window.1 ≤ S && S ≤ k.window.2

/-- The verdict on a span: the class it matches, or no match (R16). -/
def spanVerdict (expected : Option RateClass) (sp : Span) : Option RateClass :=
  if sp.overflow then none else allClasses.find? (·.matches expected sp.ticks)

/-- A span is yielded: it becomes the last span, the next one begins, RATE_UNKNOWN is updated, and the converter is
handed the span with its verdict (R15 to R17, R24 to R26). RATE_UNKNOWN, with its entry's notice, comes before the
converter and its FEED_CLASS notice (log 34). -/
def yieldSpan (f : FeedId) (s : State) : State :=
  let q := (s.feed f).port
  let sp : Span := ⟨q.spanCounter, q.overflowMark⟩
  let verdict := spanVerdict q.expected sp
  let s1 := s.onPort f fun q =>
    { q with lastSpan := some sp, edgeCount := 0, spanCounter := 0, overflowMark := false }
  let s2 := setFeedCond f .rateUnknown verdict.isNone s1
  changeConverter f ((s2.feed f).conv.takeSpan sp.ticks verdict) s2

/-- The frame edge advances the span measurement: it is edge 0, a further edge, or the 64th, which yields the span
(R15). -/
def advanceSpan (f : FeedId) (s : State) : State :=
  let q := (s.feed f).port
  if !q.spanOpen then
    s.onPort f fun q => { q with spanOpen := true, edgeCount := 0, spanCounter := 0, overflowMark := false }
  else if 64 ≤ q.edgeCount + 1 then yieldSpan f s
  else s.onPort f fun q => { q with edgeCount := q.edgeCount + 1 }

/-- The first frame edge after a loss makes FEED_LOST false (R14). -/
def endLoss (f : FeedId) (s : State) : State := setFeedCond f .feedLost false s

/-- A frame-start edge (R1): the end of a loss (R14), the end of the frame in progress (R2), the span measurement
(R15), the loss timer (R12), and a new frame. `frameFirst` takes the frame before the span (R23). -/
def frameEdge (f : FeedId) (frameFirst : Bool) (s : State) : State :=
  if (s.feed f).port.enable then
    let s1 := endLoss f s
    let s2 := if frameFirst then advanceSpan f (endFrame f s1) else endFrame f (advanceSpan f s1)
    (restartLossTimer f s2).onPort f fun q => { q with frame := .opened }
  else s

/-! ## Loss, enable and disable -/

/-- The span measurement and the frame in progress are abandoned (R4, R5, R13, R15). The last span is kept. -/
def Port.abandon (q : Port) : Port :=
  { q with spanOpen := false, edgeCount := 0, spanCounter := 0, overflowMark := false, frame := .none }

/-- The loss timer of a feed has reached its timeout (R12). -/
def lossIsDue (s : State) (f : FeedId) : Bool :=
  let q := (s.feed f).port
  q.enable && !s.feedCond f .feedLost &&
    match q.lossTimer with
    | none => false
    | some t => q.lossTimeout ≤ t

/-- What a loss clears in the port (R13). -/
def clearLostPort (f : FeedId) (s : State) : State :=
  s.onPort f fun q => { q.abandon with chA := q.chA.clean, chB := q.chB.clean, lossTimer := none }

/-- The port's other conditions become false at a loss (R13). -/
def lossConditions (f : FeedId) (s : State) : State :=
  setFeedCond f .rateUnknown false (setFeedCond f .feedErrors false s)

/-- The port tells its converter of the loss: a converter in TRACK or LOCKED enters SEARCH (R13, R22). -/
def loseConverter (f : FeedId) (s : State) : State :=
  let c := (s.feed f).conv
  if c.state = .track ∨ c.state = .locked then changeConverter f c.enterSearch s else s

/-- The feed is declared lost (R13). `lossFirst` makes FEED_LOST true before the converter's class event. -/
def declareLoss (f : FeedId) (lossFirst : Bool) (s : State) : State :=
  let s1 := clearLostPort f s
  if lossFirst then loseConverter f (lossConditions f (setFeedCond f .feedLost true s1))
  else lossConditions f (setFeedCond f .feedLost true (loseConverter f s1))

/-- FEED_LOST, RATE_UNKNOWN and FEED_ERRORS become false (R4, R5). -/
def clearPortConds (f : FeedId) (s : State) : State :=
  setFeedCond f .feedErrors false (setFeedCond f .rateUnknown false (setFeedCond f .feedLost false s))

/-- Enable turns from off to on (R4): the port is clean, the loss timer starts with the 32 kHz timeout, and the
converter leaves IDLE for SEARCH (R21). The feed is judged again (R62). -/
def enablePort (f : FeedId) (s : State) : State :=
  let s1 := s.onPort f fun q =>
    { q.abandon with
      chA := q.chA.clean, chB := q.chB.clean, lastSpan := none, lossTimer := some 0
      lossTimeout := lossTimeoutOf (some .k32) }
  judgeHealth f (changeConverter f (s1.feed f).conv.enterSearch (clearPortConds f s1))

/-- Enable turns from on to off (R5): the port stops, its conditions become false, and its converter enters IDLE with
SRC_UNLOCKED and SRC_SLIP false (R21, R36), both before the FEED_CLASS notice of its class event (log 37). The feed is
judged again (R62). -/
def disablePort (f : FeedId) (s : State) : State :=
  let s1 := s.onPort f fun q =>
    { q.abandon with chA := q.chA.unmuted, chB := q.chB.unmuted, lastSpan := none, lossTimer := none }
  let s2 := setFeedCond f .srcSlip false (setFeedCond f .srcUnlocked false (clearPortConds f s1))
  judgeHealth f (changeConverter f (s2.feed f).conv.enterIdle s2)

/-- The port while master ticks pass: the loss timer counts up to its timeout (R12), and the span counter counts and
stops at 65,535 with the overflow mark set (R15). -/
def Port.pass (n : Nat) (q : Port) : Port :=
  { q with
    lossTimer := q.lossTimer.map fun t => max t (min (t + n) q.lossTimeout)
    spanCounter := if q.spanOpen then satAdd 65535 q.spanCounter n else q.spanCounter
    overflowMark := q.overflowMark || (q.spanOpen && 65535 < q.spanCounter + n) }

end Sys2Proof.Machine
end

