-- ==== Sys2Proof/Machine/Reply.lean ====
section
/-! DEFINITION. How the Command Unit takes an accepted frame (R149 to R152, R162): the kind and length tests, the reply
frame, the check form, and broadcasts. -/
namespace Sys2Proof.Machine

/-- The check byte that brings the 8-bit sum of address, kind, length and body to 0 (section 10.1). -/
def checkByte (bytes : List Byte) : Byte := 0 - bytes.foldl (· + ·) 0

/-- The bytes of a reply frame: start, direction 1 with the unit address, the received kind byte with the reply mark
set, length, body, check (R150, R162). -/
def replyFrame (u : BitVec 5) (kindByte : Byte) (body : List Byte) : List Byte :=
  let head := [0x80#8 ||| u.zeroExtend 8, kindByte ||| 0x80#8, BitVec.ofNat 8 body.length] ++ body
  0x5A#8 :: head ++ [checkByte head]

/-- The reply body: the status byte, and the fields of a message that is not refused (R150, R162). -/
def replyBody : Except Status Taken → List Byte
  | .error st => byte1 st.code
  | .ok t => byte1 t.status.code ++ t.fields

/-- The kind byte of a message as received. -/
def kindByte (k : Kind) (check : Bool) : Byte := BitVec.ofNat 8 k.code ||| (if check then 0x40#8 else 0)

/-- The bytes of the frame that carries a message: start, address, kind, length and check beside the body. -/
def frameBytes (m : Msg) : Nat := m.body.length + 5

/-- Bytes that arrive while the receiver is BUSY are discarded, and each counts an overrun (R149). -/
def countOverruns (n : Nat) (s : State) : State :=
  { s with rx := { s.rx with overrun := satAdd Config.counterLimit s.rx.overrun n } }

/-- A frame carries address 31. A unit strapped to 31 has no address of its own (R146). -/
def isBroadcast (m : Msg) (s : State) : Bool := m.broadcast || s.unitAddr == 31

/-- The unit begins to send a reply: the receiver is BUSY until it has ended (R149). -/
def beginReply (kb : Byte) (body : List Byte) (s : State) : State :=
  { s with reply := some (replyFrame s.unitAddr kb body), rx := { s.rx with state := .busy } }

/-- The receiver returns to HUNT (R149). -/
def toHunt (s : State) : State := { s with rx := { s.rx with state := .hunt } }

/-- The tests of R151 in their order: a check-form mark on a query kind, the body length, then the kind's own. -/
def judge (k : Kind) (eval : List Byte → State → Except Status Taken) (m : Msg) (s : State) : Except Status Taken :=
  if k.isQuery && m.check then .error .badKind
  else if k.lengthOk m.body.length then eval m.body s
  else .error .badLength

/-- The state a judged message leaves: a refusal and a check form change nothing (R151, R152). -/
def carriedOut (r : Except Status Taken) (check : Bool) (s : State) : State :=
  match r with
  | .error _ => s
  | .ok t => if check then s else t.after

/-- A frame of a kind is taken (R150). While a reply is being sent its bytes are lost (R149). A broadcast of a query
kind is ignored, and no broadcast is answered; every other frame is answered. -/
def deliver (k : Kind) (eval : List Byte → State → Except Status Taken) (m : Msg) (s : State) : State :=
  if s.rx.state = .busy then countOverruns (frameBytes m) s
  else
    let r := judge k eval m s
    if isBroadcast m s then toHunt (if k.isQuery then s else carriedOut r m.check s)
    else beginReply (kindByte k m.check) (replyBody r) (carriedOut r m.check s)

/-- A frame whose kind byte R151's first test refuses: answered with BAD_KIND where it is addressed, and without effect
where it is a broadcast (R150, R151). -/
def deliverBadKind (kb : Byte) (m : Msg) (s : State) : State :=
  if s.rx.state = .busy then countOverruns (frameBytes m) s
  else if isBroadcast m s then toHunt s
  else beginReply kb (byte1 Status.badKind.code) s

end Sys2Proof.Machine
end

