-- ==== Sys2Proof/Machine/FeedCommands.lean ====
section
/-! DEFINITION. The feed messages: FEED_CONFIG (R3 to R6) and FEED_QUERY (R18, R41). -/
namespace Sys2Proof.Machine

/-- The four configuration fields are stored together and each acts as R4 to R6 state. -/
def storeFeedConfig (f : FeedId) (en : Bool) (ex : Option RateClass) (par val : Bool) (s : State) : State :=
  let was := (s.feed f).port.enable
  let s1 := s.onPort f fun q =>
    { q with enable := en, expected := ex, parityCheck := par, honourValidity := val }
  match was, en with
  | false, true => enablePort f s1
  | true, false => disablePort f s1
  | _, _ => s1

/-- The four stored configuration fields of a port, one byte each (R3, R163). -/
def feedConfigFields (q : Port) : List Byte :=
  bool1 q.enable ++ byte1 (classCode q.expected) ++ bool1 q.parityCheck ++ bool1 q.honourValidity

/-- FEED_CONFIG (R3). -/
def evalFeedConfig (body : List Byte) (s : State) : Except Status Taken := do
  let f ← feedIndex (byteAt body 0)
  let en ← enumField (onOffOfCode (byteAt body 1))
  let ex ← enumField (classOfCode (byteAt body 2))
  let par ← enumField (onOffOfCode (byteAt body 3))
  let val ← enumField (onOffOfCode (byteAt body 4))
  .ok
    { fields := bool1 en ++ byte1 (classCode ex) ++ bool1 par ++ bool1 val
      after := storeFeedConfig f en ex par val s }

/-- Bits packed into one byte, bit 0 first (R163). -/
def bits1 (l : List Bool) : List Byte := byte1 (l.foldr (fun b n => b.toNat + 2 * n) 0)

/-- One channel of a FEED_QUERY reply (R163). -/
def Channel.fields (c : Channel) : List Byte :=
  bool1 c.muted ++ byte1 c.badRun ++ byte1 c.goodRun ++ byte2 c.concealCount ++ byte2 c.muteCount

/-- The last span of a FEED_QUERY reply: its mark and its value (R163). -/
def spanFields : Option Span → List Byte
  | none => byte1 0 ++ byte2 0
  | some sp => byte1 (if sp.overflow then 2 else 1) ++ byte2 sp.ticks

/-- The converter part of a FEED_QUERY reply (R41, R163). -/
def Converter.fields (c : Converter) : List Byte :=
  byte1 c.state.code ++ byte1 (classCode c.cls) ++ byte4 c.ratio ++ byte4 c.stepUsed ++ byte1 c.fill ++
    bool1 c.refillWait ++ byte2 c.slipCount

/-- The FEED_QUERY reply fields (R18, R41, R163). -/
def feedQueryFields (s : State) (f : FeedId) : List Byte :=
  let q := (s.feed f).port
  feedConfigFields q ++ bits1 (feedConds.map (s.feedCond f)) ++ spanFields q.lastSpan ++ q.chA.fields ++
    q.chB.fields ++ (s.feed f).conv.fields

/-- A channel's two counters at 0 (R11). -/
def Channel.uncounted (c : Channel) : Channel := { c with concealCount := 0, muteCount := 0 }

/-- The counters a FEED_QUERY clears: both channels' and the slip count (R18, R41). -/
def clearFeedCounters (f : FeedId) (s : State) : State :=
  let x := s.feed f
  s.setFeed f
    { x with
      port := { x.port with chA := x.port.chA.uncounted, chB := x.port.chB.uncounted }
      conv := { x.conv with slipCount := 0 } }

/-- FEED_QUERY (R18). -/
def evalFeedQuery (body : List Byte) (s : State) : Except Status Taken := do
  let f ← feedIndex (byteAt body 0)
  let clear ← enumField (onOffOfCode (byteAt body 1))
  .ok { fields := feedQueryFields s f, after := if clear then clearFeedCounters f s else s }

def execFeedConfig (m : Msg) (s : State) : Host.Outcome State Fault Refusal :=
  onUnit (deliver .feedConfig evalFeedConfig m) s

def execFeedQuery (m : Msg) (s : State) : Host.Outcome State Fault Refusal :=
  onUnit (deliver .feedQuery evalFeedQuery m) s

end Sys2Proof.Machine
end

