-- ==== Sys2Proof/Machine/Loudness.lean ====
section
/-! DEFINITION. The loudness controllers (05 and 06): block and momentary level (R84, R86), the gates and the window
(R87 to R91), the silence timer (R93, R94), settings made active (R100), the gain law (R101, R102), link groups (R104,
R105), the gain ramp (R106), the level conditions (R109, R110), and the limiter's arithmetic (R107, R108). -/
namespace Sys2Proof.Machine

/-- I, the integrated level: the rounded mean of the window, none for an empty one (R91). -/
def Loudness.integrated (l : Loudness) : Option Int := if l.window.isEmpty then none else some (mean l.window)

/-! ## Levels -/

/-- The weight w of a weight code in the measured power (R45, R84). -/
def WeightCode.weight : WeightCode → Rat
  | .excluded => 0
  | .unity => 1
  | .surround => 141 / 100

/-- The block power: the weighted sum of the slots' mean squares (R84). -/
def blockPower (weights : List WeightCode) (acc : List Rat) : Rat :=
  (List.zipWith (fun w a => w.weight * (a / 4800)) weights acc).foldl (· + ·) 0

/-- 100 × log10 of the power, rounded half up, is at least n: 10^((n − 1/2)/100) ≤ P, both sides to the 200th. -/
def levelReaches (power : Rat) (n : Int) : Bool := (10 : Rat) ^ (2 * n - 1) ≤ power ^ (200 : Nat)

/-- The largest level from −900 + k down that the power reaches, and −900 where it reaches none. -/
def levelFrom (power : Rat) : Nat → Int
  | 0 => -900
  | k + 1 => if levelReaches power (-900 + (k + 1 : Nat)) then -900 + (k + 1 : Nat) else levelFrom power k

/-- B: 100 × log10 of the block power, rounded half toward positive infinity, clamped to −900 to +120; −900 for a
power of zero (R84). -/
def blockLevel (power : Rat) : Int := if power ≤ 0 then -900 else levelFrom power 1020

/-- The momentary history after a block level joins: never more than four (R86). -/
def joinHistory (h : List Int) (b : Int) : List Int := lastN 4 (h ++ [b])

/-- The window after a momentary level joins: at most W values (R89). -/
def joinWindow (w : Nat) (win : List Int) (m : Int) : List Int := lastN w (win ++ [m])

/-- The four gates of R87, with I as it stands before the block joins. -/
def gatesPass (l : Loudness) (m : Int) (swapping : Bool) : Bool :=
  decide (-700 ≤ m) &&
    (match l.integrated with
      | none => true
      | some i => decide (i - 100 ≤ m)) &&
    !swapping && l.active.mode != .bypass

/-! ## Settings made active (R100) -/

/-- G within the active bounds, and 0 in MEASURE and BYPASS (R100). -/
def boundGain (a : LoudSettings) (g : Int) : Int :=
  if a.mode = .correct then clampInt (-a.cutMax) a.boostMax g else 0

/-- The silence timer when a silence time replaces another (R94). -/
def retimeSilence (was now timer : Nat) : Nat :=
  if now = was then timer
  else if now = 0 then 0
  else if was = 0 then now
  else min timer now

/-- Step 1 of a block close: the pending settings become active (R90, R94, R100). -/
def Loudness.activate (l : Loudness) : Loudness :=
  let a := l.pending
  { l with
    active := a
    ownGain := boundGain a l.ownGain
    limiterGain := if a.mode = .bypass then 1 else l.limiterGain
    window := lastN a.window l.window
    silenceTimer := retimeSilence l.active.silenceTime a.silenceTime l.silenceTimer }

/-! ## The gain law (R101, R102) -/

/-- One slew step toward the correction (R102). -/
def slewGain (a : LoudSettings) (g c : Int) : Int :=
  if g < c then min c (g + a.rise) else if c < g then max c (g - a.fall) else g

/-- G after the gain law of a close, with the verdict of that close (R101). -/
def gainLaw (l : Loudness) (admitted : Bool) : Int :=
  if l.active.mode ≠ .correct then 0
  else if !admitted then l.ownGain
  else match l.integrated with
    | none => l.ownGain
    | some i =>
      if l.window.length < min l.active.holdOff l.active.window then l.ownGain
      else slewGain l.active l.ownGain (clampInt (-l.active.cutMax) l.active.boostMax (l.active.target - i))

/-! ## One close of one controller (R85) -/

/-- Steps 2 and 3 for a block that is measured: B, M, the gates, the window (R84, R86 to R89). -/
def Loudness.measureBlock (l : Loudness) (weights : List WeightCode) (swapping : Bool) : Loudness :=
  let b := blockLevel (blockPower weights l.accumulators)
  let h := joinHistory l.history b
  let m := mean h
  let ok := gatesPass l m swapping
  { l with
    history := h, lastB := some b, lastM := some m
    lastVerdict := if ok then .admitted else .notAdmitted
    window := if ok then joinWindow l.active.window l.window m else l.window }

/-- The silence timer after a measured block with no swap in flight (R93). -/
def countSilence (a : LoudSettings) (m : Int) (timer : Nat) : Nat :=
  if a.silenceTime = 0 then 0
  else if a.silenceThreshold ≤ m then a.silenceTime
  else timer - 1

/-- Sound or a silence time of 0 makes SILENCE false at a close (R93). -/
def soundHeard (a : LoudSettings) (m : Int) : Bool := a.silenceTime == 0 || decide (a.silenceThreshold ≤ m)

/-- A program measures and its present block is a whole one (R83, R85). -/
def formsBlock (g : Program) : Bool := g.active && !g.loud.incomplete

/-- Step 1 within the unit: SILENCE is false while the active silence time is 0 (R94). -/
def activateSettings (p : ProgId) (s : State) : State :=
  let l := (s.prog p).loud
  let s1 := s.onProg p fun g => { g with loud := g.loud.activate }
  if l.pending.silenceTime = 0 ∧ l.active.silenceTime ≠ 0 then setProgCond p .silence false s1 else s1

/-- Step 4: the silence timer acts on the M just formed, and SILENCE with it: it becomes true at the close that brings
the timer to 0, with its trigger where the entry is raised at once (R71, R93). -/
def silenceStep (p : ProgId) (s : State) : State :=
  let g := s.prog p
  if g.swapping then s
  else match g.loud.lastM with
    | none => s
    | some m =>
      let n := countSilence g.loud.active m g.loud.silenceTimer
      let s1 := s.onProg p fun g => { g with loud := { g.loud with silenceTimer := n } }
      if soundHeard g.loud.active m then setProgCond p .silence false s1
      else if n = 0 then setProgCond p .silence true s1
      else s1

/-- The accumulators of the slots at zero (R83). -/
def Loudness.zeroAccumulators (l : Loudness) : Loudness :=
  { l with accumulators := l.accumulators.map fun _ => 0 }

/-- Steps 2 and 4 and the gain law of a block that is measured. -/
def closeMeasured (p : ProgId) (s : State) : State :=
  let s1 := s.onProg p fun g =>
    { g with loud := (g.loud.measureBlock g.weights g.swapping).zeroAccumulators }
  (silenceStep p s1).onProg p fun g =>
    { g with loud := { g.loud with ownGain := gainLaw g.loud (g.loud.lastVerdict == .admitted) } }

/-- Steps 2 to 5 of a block that is not measured: an incomplete block is discarded and its mark cleared (R83), and the
gain law holds (R101). -/
def closeUnmeasured (p : ProgId) (s : State) : State :=
  s.onProg p fun g =>
    if g.active then { g with loud := ({ g.loud with incomplete := false } : Loudness).zeroAccumulators } else g

/-- Steps 1 to 4 of R85 and the gain law of step 5, for one program. -/
def closeController (p : ProgId) (s : State) : State :=
  let s1 := activateSettings p s
  if formsBlock (s.prog p) then closeMeasured p s1 else closeUnmeasured p s1

/-! ## Link groups (R104, R105) -/

/-- The program is a member of link group n: RUNNING, in CORRECT mode, with that active link group, 1 to 4 (R104). -/
def isMember (g : Program) (n : Nat) : Bool :=
  g.running && g.loud.active.mode == .correct && n != 0 && g.loud.active.link == n

/-- The least G among the members of link group n, starting from a value. -/
def leastGain (s : State) (n : Nat) (start : Int) : Int :=
  allProgs.foldl (fun m q => if isMember (s.prog q) n then min m (s.prog q).loud.ownGain else m) start

/-- A of a program: the least G of its group's members where it is one, its own G where it is not (R104). -/
def appliedGainOf (s : State) (p : ProgId) : Int :=
  let g := s.prog p
  if isMember g g.loud.active.link then leastGain s g.loud.active.link g.loud.ownGain else g.loud.ownGain

/-- Output samples left in the present block (R106). -/
def samplesLeft (s : State) : Nat := Config.blockSamples - s.sampleInBlock

/-- At a block close A is formed, and the gain stage of a program that runs ramps to it over the next block (R104,
R106). `formed` is A by the gains of that close. -/
def formAtClose (formed : ProgId → Int) (p : ProgId) (s : State) : State :=
  s.onProg p fun g =>
    let l := { g.loud with appliedGain := formed p }
    { g with loud := if g.active then { l with rampTarget := formed p, rampLeft := Config.blockSamples } else l }

/-- At a membership event A is formed again for the program itself and for the members of its group; a program whose A
changes ramps to it over what is left of the block (R105, R106). With 0 samples left, at the instant of a block close
and before it, the present gain stays where it is, and the close ramps it (log 38). -/
def reformGain (p : ProgId) (formed : ProgId → Int) (left : Nat) (q : ProgId) (s : State) : State :=
  let n := (s.prog p).loud.active.link
  if (q == p || isMember (s.prog q) n) && (s.prog q).loud.appliedGain != formed q then
    s.onProg q fun g =>
      { g with loud := { g.loud with appliedGain := formed q, rampTarget := formed q, rampLeft := left } }
  else s

/-- A membership event of a program (R105). -/
def membershipEvent (p : ProgId) (s : State) : State :=
  forEach allProgs (reformGain p (appliedGainOf s) (samplesLeft s)) s

/-! ## Level conditions (R109, R110) -/

/-- CEILING is judged from the held-down count, which then starts again (R109). -/
def judgeCeiling (p : ProgId) (s : State) : State :=
  let hit := decide (480 ≤ (s.prog p).loud.heldDown)
  let s1 := s.onProg p fun g =>
    { g with loud := { g.loud with
      heldDown := 0
      ceilingBlocks := if hit then satAdd Config.counterLimit g.loud.ceilingBlocks 1 else g.loud.ceilingBlocks } }
  setProgCond p .ceiling hit s1

/-- OVER_LEVEL is judged from M and A (R110). -/
def judgeOverLevel (p : ProgId) (s : State) : State :=
  let l := (s.prog p).loud
  match l.lastM with
  | none => s
  | some m => setProgCond p .overLevel (decide (l.active.overThreshold < m + l.appliedGain)) s

/-- The level conditions of one program at a close; `formed` says that M was formed at this close (R110). -/
def judgeLevels (formed : Bool) (p : ProgId) (s : State) : State :=
  if (s.prog p).active then
    let s1 := judgeCeiling p s
    if formed then judgeOverLevel p s1 else s1
  else s

/-- The rest of step 5, once every program has run its gain law: A of every program, then the level conditions (R104,
R109, R110). `formed` says of each program whether M was formed at this close. -/
def closeLevels (formed : ProgId → Bool) (s : State) : State :=
  forEach allProgs (fun p => judgeLevels (formed p) p) (forEach allProgs (formAtClose (appliedGainOf s)) s)

/-! ## Restarting a measurement -/

/-- The window and the history are emptied (R86, R92). -/
def Loudness.emptied (l : Loudness) : Loudness := { l with window := [], history := [] }

/-- The silence timer is loaded with the active silence time (R94); SILENCE is made false by the caller. -/
def Loudness.loadSilence (l : Loudness) : Loudness := { l with silenceTimer := l.active.silenceTime }

/-- What PROG_START and PROG_RESTART do to the measurement and the limiter of a program of c slots (R51, R55, R82, R83,
R108): window and history emptied, G at 0, silence timer loaded, weighting and accumulators cleared, the block marked
incomplete, the lookahead filled with zero frames. -/
def Loudness.restarted (l : Loudness) (c : Nat) : Loudness :=
  { l.emptied.loadSilence with
    ownGain := 0, weighting := List.replicate c [], accumulators := List.replicate c 0, incomplete := true
    lookahead := List.replicate Config.lookaheadFrames (List.replicate c 0), limiterGain := 1 }

/-- The end of a stop fade: the correction fields take their values (R111) and the block in progress is abandoned with
its accumulators (R83). -/
def Loudness.runEnded (l : Loudness) : Loudness :=
  { l with
    ownGain := 0, appliedGain := 0, presentGain := 0, rampTarget := 0, rampLeft := 0, lookahead := []
    limiterGain := 1, heldDown := 0, accumulators := l.accumulators.map fun _ => 0 }

/-- After PROG_DEFINE every field of the controller takes its power-on value (R44, R98, R112). -/
def Loudness.defined : Loudness := {}

/-- After a unit restart: the pending settings become active, the silence timer is loaded with the silence time they
made active, and every other field but the pending copy takes its power-on value (R98, R112). -/
def Loudness.unitRestarted (l : Loudness) : Loudness :=
  { pending := l.pending, active := l.pending, silenceTimer := l.pending.silenceTime }

/-! ## The limiter (R107, R108) -/

/-- 10^x is at least n × 2^-32: n^den ≤ 2^(32 × den) × 10^num, with x = num / den. -/
def powerReaches (x : Rat) (n : Nat) : Bool :=
  decide (n ^ x.den * 10 ^ (-x.num).toNat ≤ 2 ^ (32 * x.den) * 10 ^ x.num.toNat)

/-- The whole number found from n by its k lower bits, highest first, each set where the power still reaches it. -/
def powerBits (x : Rat) : Nat → Nat → Nat
  | 0, n => n
  | k + 1, n => powerBits x k (if powerReaches x (n + 2 ^ k) then n + 2 ^ k else n)

/-- 10^x in whole parts of 2^-32, rounded down. -/
def powerUnits (x : Rat) : Nat := powerBits x (36 + 4 * (x.num.toNat / x.den)) 0

/-- A value outside 0 to 1 is taken as the nearer end. -/
def clampUnit (x : Rat) : Rat := if x < 0 then 0 else if 1 < x then 1 else x

/-- The multiplier 10^(g/200) of R106 and R107: exactly where that is a rational number, g a whole multiple of 200, and
elsewhere a value between the two whole parts of 2^-32 about it, which one being the part's own; it is positive (log
5). -/
def linear (g : Rat) : Rat :=
  let x := g / 200
  if x.den = 1 then (10 : Rat) ^ x.num
  else
    let n := powerUnits x
    let v := ((n : Rat) + clampUnit (Config.gainFraction n)) / 4294967296
    if 0 < v then v else 1 / 4294967296

def absRat (x : Rat) : Rat := if x < 0 then -x else x

/-- The peak of a frame: its largest absolute sample (R107). -/
def framePeak (fr : List Rat) : Rat := fr.foldl (fun m x => if m < absRat x then absRat x else m) 0

/-- The requirement of a frame under a ceiling (R107). -/
def requirement (ceiling : Int) (fr : List Rat) : Rat :=
  let c := linear ceiling
  if framePeak fr ≤ c then 1 else c / framePeak fr

/-- The lower of two gains. -/
def lower (x y : Rat) : Rat := if x ≤ y then x else y

/-- The lines drawn down by the frames of the lookahead, the frame leaving now first, from d output samples on: each
whose requirement is below the present gain lowers the bound (R107). -/
def lines (ceiling : Int) (present : Rat) : Nat → List (List Rat) → Rat → Rat
  | _, [], bound => bound
  | d, fr :: rest, bound =>
    let r := requirement ceiling fr
    lines ceiling present (d + 1) rest (if r < present then lower bound (present + (r - present) / (d : Rat)) else bound)

/-- The limiter gain formed for the frame leaving the lookahead (R107): the release, the lines of the frames, and, for
the frame leaving now, no gain above its requirement (log 12). -/
def limiterGainOf (ceiling : Int) (present : Rat) (look : List (List Rat)) : Rat :=
  let release := lower 1 (present + 1 / 4800)
  lines ceiling present 1 look (match look with
    | [] => release
    | fr :: _ => lower release (requirement ceiling fr))

/-- The lookahead with its 48 frames in full: frames not listed are zero and older. -/
def fullLookahead (look : List (List Rat)) : List (List Rat) :=
  List.replicate (Config.lookaheadFrames - look.length) [] ++ look

/-- The present gain moves one output sample along its straight line to the ramp target (R106). -/
def Loudness.ramp (l : Loudness) : Loudness :=
  match l.rampLeft with
  | 0 => l
  | n + 1 =>
    { l with presentGain := l.presentGain + ((l.rampTarget : Rat) - l.presentGain) / ((n + 1 : Nat) : Rat), rampLeft := n }

end Sys2Proof.Machine
end

