-- ==== Sys2Proof/Machine/Programs.lean ====
section
/-! DEFINITION. The program messages (03): PROG_DEFINE (R44), PROG_CLEAR (R46), SET_DEFINE (R47 to R49), PROG_START
(R50, R51), PROG_STOP (R53), PROG_RESTART (R55), PROG_QUERY (R60), and the ends of the output fades (R52, R54). -/
namespace Sys2Proof.Machine

/-! ## Definition -/

/-- The defaults PROG_DEFINE gives a program of c slots (R44); its reserve is already 0. -/
def Program.redefined (c : Nat) (weights : List WeightCode) : Program :=
  { state := .defined, slots := c, weights := weights }

/-- The measurement and latency conditions of a program become false (R98, R112, R119). -/
def clearMeasureConds (p : ProgId) (s : State) : State :=
  setProgCond p .latencyOver false (setProgCond p .latencyUnder false (setProgCond p .overLevel false
    (setProgCond p .ceiling false (setProgCond p .silence false s))))

/-- The effect of a PROG_DEFINE that is taken (R44): the pages return, and the record starts again with the swap and
fade levels it stands at outside a run. -/
def defineProgram (p : ProgId) (c : Nat) (weights : List WeightCode) (s : State) : State :=
  clearMeasureConds p ((returnPages p s).onProg p fun g =>
    { Program.redefined c weights with swap := g.swap, outLevel := g.outLevel, outDir := g.outDir })

/-- UNDEFINED or DEFINED: the states that take a PROG_DEFINE (R44). -/
def Program.idle (g : Program) : Bool := g.state == .undefined || g.state == .defined

/-- A test of the state a message needs (R151, test 5). -/
def require (b : Bool) (st : Status) : Except Status Unit := if b then .ok () else .error st

/-- The weight codes of a PROG_DEFINE, every position judged (R44). -/
def readWeights (body : List Byte) : Option (List WeightCode) :=
  (List.range 8).mapM fun k => weightOfCode (byteAt body (2 + k))

/-- Weight codes as eight bytes, 0 at c and above (R44, R60). -/
def weightBytes (ws : List WeightCode) : List Byte := padTo 8 0 (ws.flatMap fun w => byte1 w.code)

/-- PROG_DEFINE (R44). -/
def evalProgDefine (body : List Byte) (s : State) : Except Status Taken := do
  let p ← progIndex (byteAt body 0)
  let ws ← enumField (readWeights body)
  let c := contField 1 8 (byteAt body 1)
  require (s.prog p).idle .wrongState
  let kept := ws.take c.stored.toNat
  .ok
    { adjusted := c.adjusted
      fields := byte1 c.stored.toNat ++ weightBytes kept
      after := defineProgram p c.stored.toNat kept s }

/-- The effect of a PROG_CLEAR taken in DEFINED (R46, R130). -/
def clearProgram (p : ProgId) (s : State) : State :=
  setProgCond p .latencyOver false (setProgCond p .latencyUnder false
    ((returnPages p s).onProg p fun g =>
      { g with state := .undefined, slots := 0, weights := [], sets := .replicate 4 none }))

/-- PROG_CLEAR (R46). -/
def evalProgClear (body : List Byte) (s : State) : Except Status Taken := do
  let p ← progIndex (byteAt body 0)
  match (s.prog p).state with
  | .undefined => .ok { after := s }
  | .defined => .ok { after := clearProgram p s }
  | .running => .error .wrongState
  | .stopping => .error .wrongState

/-! ## Source sets -/

/-- One entry of a SET_DEFINE: a feed number above 15 or a channel code above 1 names nothing (R47). -/
def readSource (feed chan : Nat) : Option SlotSource :=
  if h : feed < 16 then
    match chan with
    | 0 => some ⟨⟨feed, h⟩, .a⟩
    | 1 => some ⟨⟨feed, h⟩, .b⟩
    | _ => none
  else none

/-- The entries of a SET_DEFINE body, in the order sent. -/
def readEntries (body : List Byte) : Option (List SlotSource) :=
  (List.range ((body.length - 2) / 2)).mapM fun k => readSource (byteAt body (2 + 2 * k)) (byteAt body (3 + 2 * k))

/-- No feed channel appears twice (R47). -/
def noRepeats : List SlotSource → Bool
  | [] => true
  | x :: xs => !xs.contains x && noRepeats xs

/-- What a list makes of a rank of a program of c slots: exactly c entries define it, any other length clears it
(R47). -/
def rankSet (c : Nat) (l : List SlotSource) : Option (List SlotSource) := if l.length = c then some l else none

/-- Whether a program's state takes a SET_DEFINE of a rank (R48). -/
def setTaken (g : Program) (r : Rank) (v : Option (List SlotSource)) : Bool :=
  match g.state with
  | .undefined => false
  | .defined => true
  | .running => !g.stack.contains r && !(r == 0 && v.isNone)
  | .stopping => !g.stack.contains r

/-- The rank's set is stored, its silence-suspect mark is cleared, and a RUNNING or STOPPING program has an eligibility
event (R47, R49). -/
def storeSet (p : ProgId) (r : Rank) (v : Option (List SlotSource)) (s : State) : State :=
  eligibilityEvent p (s.onProg p fun g => ({ g with sets := g.sets.set r.val v } : Program).withMark r false)

/-- A set entry as two bytes. -/
def SlotSource.bytes (x : SlotSource) : List Byte := byte1 x.feed.val ++ byte1 x.chan.code

/-- SET_DEFINE (R47, R48). -/
def evalSetDefine (body : List Byte) (s : State) : Except Status Taken := do
  let p ← progIndex (byteAt body 0)
  let r ← rankIndex (byteAt body 1)
  let l ← enumField (readEntries body)
  require (noRepeats l) .badValue
  let v := rankSet (s.prog p).slots l
  require (setTaken (s.prog p) r v) .wrongState
  let kept := v.getD []
  .ok
    { fields := byte1 r.val ++ byte1 kept.length ++ kept.flatMap SlotSource.bytes
      after := storeSet p r v s }

/-! ## Start -/

/-- The rank a start forms the stack from: the lowest defined rank all of whose feeds are healthy, else rank 0 (R51). -/
def startRank (s : State) (g : Program) : Rank := (allRanks.find? (rankHealthy s g)).getD 0

/-- Steps 1 and 4 to 7 of a start on the record itself (R51): stack, marks, swap, fades, state, and the loudness
controller (R106, R108, R109). -/
def Program.started (g : Program) (r : Rank) : Program :=
  { g with
    state := .running, stack := [r], marks := .replicate 4 false, swap := {}, outLevel := 0, outDir := .fadeIn
    returnTimer := 0, returnFell := false
    loud := { g.loud.restarted g.slots with ceilingBlocks := 0, heldDown := 0 } }

/-- At PROG_START the present gain and the ramp target are the program's A at once (R106). -/
def snapGain (p : ProgId) (s : State) : State :=
  s.onProg p fun g =>
    { g with loud := { g.loud with presentGain := g.loud.appliedGain, rampTarget := g.loud.appliedGain, rampLeft := 0 } }

/-- A SOURCE_CHANGED notice (R51, R68, R164). -/
def sourceChanged (p : ProgId) (fromRank toRank : Option Rank) (cause : Option SwapCause) (s : State) : State :=
  pushNotice .sourceChanged (.program p) (rankByte fromRank ++ rankByte toRank ++ byte1 (causeCode cause)) s

/-- The effect of a PROG_START that is taken (R51). -/
def startProgram (p : ProgId) (s : State) : State :=
  let r := startRank s (s.prog p)
  let s1 := s.onProg p (·.started r)
  let s2 := judgeNoSource p s1
  let s3 := setProgCond p .silence false (startDelay p s2)
  let s4 := snapGain p (membershipEvent p s3)
  judgeOnBackup p (sourceChanged p none (some r) none s4)

/-- PROG_START (R50, R51). -/
def evalProgStart (body : List Byte) (s : State) : Except Status Taken := do
  let p ← progIndex (byteAt body 0)
  let g := s.prog p
  match g.state with
  | .undefined => .error .wrongState
  | .running => .error .wrongState
  | .stopping => .error .busy
  | .defined =>
    require ((g.setAt 0).isSome && decide (1 ≤ g.delay.reserve)) .wrongState
    let t := startProgram p s
    .ok { fields := byte1 (startRank s g).val ++ bool1 (t.progCond p .noSource), after := t }

/-! ## Stop and restart -/

/-- The end of a stop fade on the record (R54, R80, R111). Dtgt, Dcur and the silence timer keep their values. -/
def Program.runEnded (g : Program) : Program :=
  { g with
    state := .defined, stack := [], marks := .replicate 4 false, swap := {}, outDir := .none
    returnTimer := 0, returnFell := false, loud := g.loud.runEnded }

/-- Every condition of a program becomes false (R54, R95, R111, R119). -/
def clearRunConds (p : ProgId) (s : State) : State :=
  clearMeasureConds p (setProgCond p .onBackup false (setProgCond p .noSource false s))

/-- The end of a stop fade: the record, the conditions, and then PROGRAM_STOPPED with the last current rank (R54; log
37). -/
def endStopFade (p : ProgId) (s : State) : State :=
  pushNotice .programStopped (.program p) (rankByte (s.prog p).currentRank)
    (clearRunConds p (s.onProg p Program.runEnded))

/-- A stop on the record (R53, R80, R127): a swap in flight is abandoned with its level held and the stack reduced to
its top, the delay operation ends, and the stop fade begins. -/
def Program.stopped (g : Program) : Program :=
  { g with
    state := .stopping
    stack := if g.swapping then g.currentRank.toList else g.stack
    swap := if g.swapping then { level := g.swap.level } else g.swap
    delay := g.delay.noOp, outDir := .fadeOut, returnFell := false }

/-- The effect of a PROG_STOP taken in RUNNING (R53, R105). At output fade level 0 the fade-out has no samples to run,
and the stop fade ends at the instant of the message (R54). -/
def stopProgram (p : ProgId) (s : State) : State :=
  let t := membershipEvent p (s.onProg p Program.stopped)
  if (s.prog p).outLevel = 0 then endStopFade p t else t

/-- PROG_STOP (R53). -/
def evalProgStop (body : List Byte) (s : State) : Except Status Taken := do
  let p ← progIndex (byteAt body 0)
  match (s.prog p).state with
  | .undefined => .error .wrongState
  | .defined => .ok { after := s }
  | .stopping => .ok { after := s }
  | .running => .ok { after := stopProgram p s }

/-- A restart on the record (R55): the loudness controller, and a fade-in from a level below 480. -/
def Program.rerun (g : Program) : Program :=
  { g with
    loud := g.loud.restarted g.slots
    outDir := if g.outLevel < Config.fadeFull then .fadeIn else g.outDir }

/-- The effect of a PROG_RESTART (R55, R105). -/
def restartProgram (p : ProgId) (s : State) : State :=
  membershipEvent p (startDelay p (setProgCond p .silence false (s.onProg p Program.rerun)))

/-- PROG_RESTART (R55). -/
def evalProgRestart (body : List Byte) (s : State) : Except Status Taken := do
  let p ← progIndex (byteAt body 0)
  require (s.prog p).running .wrongState
  .ok { after := restartProgram p s }

/-! ## Query (R60, R163) -/

/-- A rank's set in a PROG_QUERY reply: its count, then eight entries, unused ones 0. -/
def setBytes (v : Option (List SlotSource)) : List Byte :=
  byte1 (v.getD []).length ++ padTo 16 0 ((v.getD []).flatMap SlotSource.bytes)

/-- A value of the current set, 0xFF while the stack is empty. -/
def stackByte (g : Program) (n : Nat) : List Byte := if g.stack.isEmpty then [0xFF] else byte1 n

/-- The PROG_QUERY reply fields (R60, R163). -/
def progQueryFields (s : State) (p : ProgId) : List Byte :=
  let g := s.prog p
  byte1 g.state.code ++ byte1 g.slots ++ weightBytes g.weights ++ allRanks.flatMap (fun r => setBytes (g.setAt r)) ++
    byte1 g.stack.length ++ padTo 4 0xFF (g.stack.flatMap fun r => byte1 r.val) ++ rankByte g.currentRank ++
    byte1 g.swap.phase.code ++ byte2 g.swap.level ++ byte2 g.outLevel ++ byte1 g.outDir.code ++
    bits1 (allRanks.map g.markAt) ++ byte2 g.returnTimer ++ bool1 g.autoReturn ++ byte2 g.returnHold ++
    bool1 g.resetOnSwap ++ stackByte g (lsrcMax s g) ++ stackByte g (trimMax s g) ++
    padTo 8 0xFF ((trims s g).flatMap byte1) ++ bits1 [s.progCond p .noSource, s.progCond p .onBackup]

/-- PROG_QUERY (R60). -/
def evalProgQuery (body : List Byte) (s : State) : Except Status Taken := do
  let p ← progIndex (byteAt body 0)
  .ok { fields := progQueryFields s p, after := s }

/-! ## Ends of the output fades -/

/-- The output fade level has reached 480 during a fade-in (R52). -/
def startFadeIsDue (s : State) (p : ProgId) : Bool :=
  (s.prog p).outDir == .fadeIn && (s.prog p).outLevel == Config.fadeFull

/-- The output fade level of a STOPPING program has reached 0 (R54). -/
def stopFadeIsDue (s : State) (p : ProgId) : Bool :=
  (s.prog p).state == .stopping && (s.prog p).outLevel == 0

/-! ## Meanings -/

def execProgDefine (m : Msg) (s : State) : Host.Outcome State Fault Refusal :=
  onUnit (deliver .progDefine evalProgDefine m) s

def execProgClear (m : Msg) (s : State) : Host.Outcome State Fault Refusal :=
  onUnit (deliver .progClear evalProgClear m) s

def execSetDefine (m : Msg) (s : State) : Host.Outcome State Fault Refusal :=
  onUnit (deliver .setDefine evalSetDefine m) s

def execProgStart (m : Msg) (s : State) : Host.Outcome State Fault Refusal :=
  onUnit (deliver .progStart evalProgStart m) s

def execProgStop (m : Msg) (s : State) : Host.Outcome State Fault Refusal :=
  onUnit (deliver .progStop evalProgStop m) s

def execProgRestart (m : Msg) (s : State) : Host.Outcome State Fault Refusal :=
  onUnit (deliver .progRestart evalProgRestart m) s

def execProgQuery (m : Msg) (s : State) : Host.Outcome State Fault Refusal :=
  onUnit (deliver .progQuery evalProgQuery m) s

/-- The start fade is over (R52). -/
def execStartFadeEnd (p : ProgId) (s : State) : Host.Outcome State Fault Refusal :=
  onUnit (fun t => if startFadeIsDue t p then t.onProg p fun g => { g with outDir := .none } else t) s

/-- The stop fade is over (R54). -/
def execStopFadeEnd (p : ProgId) (s : State) : Host.Outcome State Fault Refusal :=
  onUnit (fun t => if stopFadeIsDue t p then endStopFade p t else t) s

end Sys2Proof.Machine
end

