-- ==== Sys2Proof/Machine/AlarmCommands.lean ====
section
/-! DEFINITION. The alarm messages: ALARM_CONFIG (R143), ALARM_QUERY (R144), ALARM_ACK (R141), ALARM_SCAN (R145); and
the expiries of the alarm timers (R135). -/
namespace Sys2Proof.Machine

/-- An entry with a new configuration; severity OFF unlatches it (R139). -/
def Entry.configured (x : Entry) (c : EntryConfig) : Entry :=
  { x with config := c, latched := if c.severity = .off then false else x.latched }

/-- The four fields are stored, and a change of action on a feed entry in ACTIVE or FALLING is a health event of the
feed (R140, R143). -/
def storeEntryConfig (e : EntryId) (c : EntryConfig) (s : State) : State :=
  let x := s.entry e
  let s1 := s.setEntry e (x.configured c)
  if x.config.action ≠ c.action ∧ (x.state = .active ∨ x.state = .falling) then
    match entrySource e with
    | .feed f => judgeHealth f s1
    | .program _ => s1
    | .unit => s1
  else s1

/-- ALARM_CONFIG (R143). -/
def evalAlarmConfig (body : List Byte) (s : State) : Except Status Taken := do
  let e ← entryIndex (byteAt body 0)
  let sev ← enumField (severityOfCode (byteAt body 1))
  let act ← enumField (actionOfCode (byteAt body 6))
  require (act == .none || failoverLegal e) .badValue
  let up := contField 0 255 (wordAt body 2)
  let down := contField 0 255 (wordAt body 4)
  .ok
    { adjusted := up.adjusted || down.adjusted
      fields := byte1 sev.code ++ byte2 up.stored.toNat ++ byte2 down.stored.toNat ++ byte1 act.code
      after := storeEntryConfig e ⟨sev, up.stored.toNat, down.stored.toNat, act⟩ s }

/-- The ALARM_QUERY reply fields (R144, R163). -/
def alarmQueryFields (s : State) (e : EntryId) : List Byte :=
  let x := s.entry e
  byte1 e.val ++ byte1 x.config.severity.code ++ byte1 x.config.raiseDelay ++ byte1 x.config.clearDelay ++
    byte1 x.config.action.code ++ byte1 x.state.code ++ byte1 x.timer ++
    bits1 [x.latched, x.acknowledged, s.cond e] ++ byte1 x.raiseCount ++ byte4 x.stamp.toNat

/-- ALARM_QUERY (R144). -/
def evalAlarmQuery (body : List Byte) (s : State) : Except Status Taken := do
  let e ← entryIndex (byteAt body 0)
  .ok { fields := alarmQueryFields s e, after := s }

/-- An entry acknowledged: in CLEAR it unlatches (R141). -/
def Entry.acked (x : Entry) : Entry :=
  { x with acknowledged := true, latched := x.latched && x.state != .clear }

/-- The entries an ALARM_ACK names (R141, R160). -/
def ackNames (n : Nat) : Except Status (List EntryId) :=
  if n = 0xFF then .ok allEntries
  else match entryIndex n with
    | .ok e => .ok [e]
    | .error st => .error st

/-- ALARM_ACK (R141). -/
def evalAlarmAck (body : List Byte) (s : State) : Except Status Taken := do
  let es ← ackNames (byteAt body 0)
  let count := (es.filter fun e => (s.entry e).latched && !(s.entry e).acknowledged).length
  .ok
    { fields := byte1 (byteAt body 0) ++ byte1 count
      after := forEach es (fun e t => t.setEntry e (t.entry e).acked) s }

/-- An entry that an ALARM_SCAN lists: not in CLEAR, or latched (R145). -/
def scanLists (s : State) (e : EntryId) : Bool := (s.entry e).state != .clear || (s.entry e).latched

/-- One listing of an ALARM_SCAN reply (R163). -/
def listing (s : State) (e : EntryId) : List Byte :=
  let x := s.entry e
  byte1 e.val ++ byte1 (x.state.code + 4 * x.config.severity.code + 16 * x.latched.toNat + 32 * x.acknowledged.toNat)

/-- The next identifier of a scan: none unless 64 entries are listed and the last is below 136 (R145). -/
def nextIdentifier (listed : List EntryId) : List Byte :=
  match listed.getLast? with
  | none => [0xFF]
  | some e => if listed.length = 64 ∧ e.val < 136 then byte1 (e.val + 1) else [0xFF]

/-- ALARM_SCAN (R145). -/
def evalAlarmScan (body : List Byte) (s : State) : Except Status Taken := do
  let start ← entryIndex (byteAt body 0)
  let found := (allEntries.filter fun e => decide (start ≤ e) && scanLists s e).take 64
  .ok
    { fields := byte1 found.length ++ nextIdentifier found ++ found.flatMap (listing s)
      after := s }

def execAlarmConfig (m : Msg) (s : State) : Host.Outcome State Fault Refusal :=
  onUnit (deliver .alarmConfig evalAlarmConfig m) s

def execAlarmQuery (m : Msg) (s : State) : Host.Outcome State Fault Refusal :=
  onUnit (deliver .alarmQuery evalAlarmQuery m) s

def execAlarmAck (m : Msg) (s : State) : Host.Outcome State Fault Refusal :=
  onUnit (deliver .alarmAck evalAlarmAck m) s

def execAlarmScan (m : Msg) (s : State) : Host.Outcome State Fault Refusal :=
  onUnit (deliver .alarmScan evalAlarmScan m) s

/-- The raise delay of an entry has run out (R135, R137). -/
def execAlarmRaiseDelayExpiry (e : EntryId) (s : State) : Host.Outcome State Fault Refusal :=
  onUnit (expireRaise e) s

/-- The clear delay of an entry has run out (R135, R138). -/
def execAlarmClearDelayExpiry (e : EntryId) (s : State) : Host.Outcome State Fault Refusal :=
  onUnit (expireClear e) s

end Sys2Proof.Machine
end

