-- ==== Sys2Proof/Machine/DelayCommands.lean ====
section
/-! DEFINITION. The delay messages: DELAY_RESERVE (R115), DELAY_TARGET (R120), DELAY_QUERY (R128), POOL_QUERY (R129);
and the events of a delay operation (R121, R123, R124). -/
namespace Sys2Proof.Machine

/-- DELAY_RESERVE (R115). -/
def evalDelayReserve (body : List Byte) (s : State) : Except Status Taken := do
  let p ← progIndex (byteAt body 0)
  let P := contField 0 94 (byteAt body 1)
  require ((s.prog p).state == .defined) .wrongState
  let need := (s.prog p).slots * P.stored.toNat
  require (decide (need ≤ pageRoom s p)) .noRoom
  let t := rebuildChain p P.stored.toNat s
  .ok
    { adjusted := P.adjusted
      fields := byte1 P.stored.toNat ++ byte2 (t.prog p).delay.chain.length ++ byte2 t.freePages.length
      after := t }

/-- The conditions byte of a delay reply (R163). -/
def latencyBits (s : State) (p : ProgId) : List Byte :=
  bits1 [s.progCond p .latencyUnder, s.progCond p .latencyOver]

/-- The three delay settings stored, and Dtgt of a program that runs recomputed (R118, R120). -/
def storeTarget (p : ProgId) (ltgt slew : Nat) (n : StepInterval) (s : State) : State :=
  recomputeDelay p (s.onProg p fun g =>
    { g with delay := { g.delay with ltgt := ltgt, slewLimit := slew, interval := n } })

/-- DELAY_TARGET (R120, R162). -/
def evalDelayTarget (body : List Byte) (s : State) : Except Status Taken := do
  let p ← progIndex (byteAt body 0)
  let n ← enumField (intervalOfCode (byteAt body 7))
  let ltgt := contField 0 96000 (longAt body 1)
  let slew := contField 0 4800 (wordAt body 5)
  require ((s.prog p).state != .undefined) .wrongState
  let t := storeTarget p ltgt.stored.toNat slew.stored.toNat n s
  .ok
    { adjusted := ltgt.adjusted || slew.adjusted
      fields := byte4 ltgt.stored.toNat ++ byte2 slew.stored.toNat ++ byte1 n.code ++
        byte4 (t.prog p).delay.dtgt ++ latencyBits t p
      after := t }

/-- The DELAY_QUERY reply fields (R128, R163). A step that has run its interval and is not yet complete is reported at
the interval less 1, as the record before its last output sample has it (log 32). -/
def delayQueryFields (s : State) (p : ProgId) : List Byte :=
  let g := s.prog p
  let d := g.delay
  byte4 d.ltgt ++ byte2 d.slewLimit ++ byte1 d.interval.code ++ stackByte g (lsrcMax s g) ++
    stackByte g (trimMax s g) ++ byte4 d.dtgt ++ byte4 d.dcur ++ byte1 d.op.code ++
    byte2 (min d.progress (d.stepInterval.samples - 1)) ++ byte1 d.reserve ++ byte2 d.chain.length ++
    byte4 d.flushCounter ++ latencyBits s p

/-- DELAY_QUERY (R128). -/
def evalDelayQuery (body : List Byte) (s : State) : Except Status Taken := do
  let p ← progIndex (byteAt body 0)
  .ok { fields := delayQueryFields s p, after := s }

/-- The page at the head of the free list, 0xFFFF for none (R129, R159). -/
def headPage (s : State) : List Byte :=
  match s.freePages with
  | [] => byte2 0xFFFF
  | n :: _ => byte2 n

/-- POOL_QUERY (R129). -/
def evalPoolQuery (_ : List Byte) (s : State) : Except Status Taken :=
  .ok
    { fields := byte2 s.freePages.length ++ headPage s ++
        allProgs.flatMap fun p => byte1 (s.prog p).delay.reserve ++ byte2 (s.prog p).delay.chain.length
      after := s }

def execDelayReserve (m : Msg) (s : State) : Host.Outcome State Fault Refusal :=
  onUnit (deliver .delayReserve evalDelayReserve m) s

def execDelayTarget (m : Msg) (s : State) : Host.Outcome State Fault Refusal :=
  onUnit (deliver .delayTarget evalDelayTarget m) s

def execDelayQuery (m : Msg) (s : State) : Host.Outcome State Fault Refusal :=
  onUnit (deliver .delayQuery evalDelayQuery m) s

def execPoolQuery (m : Msg) (s : State) : Host.Outcome State Fault Refusal :=
  onUnit (deliver .poolQuery evalPoolQuery m) s

/-- A SLEW step completes (R121). -/
def execSlewStepComplete (p : ProgId) (s : State) : Host.Outcome State Fault Refusal :=
  onUnit (fun t => if slewIsDue t p then slewComplete p t else t) s

/-- The CUT_OUT fade has reached 0: Dcur jumps (R123). -/
def execCutJump (p : ProgId) (s : State) : Host.Outcome State Fault Refusal :=
  onUnit (fun t => if cutJumpIsDue t p then cutJump p t else t) s

/-- The CUT_IN fade has reached 480 (R124). -/
def execCutInEnd (p : ProgId) (s : State) : Host.Outcome State Fault Refusal :=
  onUnit (fun t => if cutInIsDue t p then cutInEnd p t else t) s

end Sys2Proof.Machine
end

