-- ==== Sys2Proof/Machine/LineCommands.lean ====
section
/-! DEFINITION. The line and unit messages: IDENT (R155), RESTART (R158), LINK_STATS (R156), NOTICES (R154), and the
refused frame of a bad kind (R151). -/
namespace Sys2Proof.Machine

/-- IDENT reports codes, unit address, reset cause, house reference and block counter (R155, R160). -/
def evalIdent (_ : List Byte) (s : State) : Except Status Taken :=
  .ok
    { fields :=
        byte1 0x0B ++ byte1 0x18 ++ byte1 0x01 ++ byte1 s.unitAddr.toNat ++ byte1 s.resetCause.code ++
          bool1 s.monitor.lost ++ byte4 s.blockCounter.toNat
      after := s }

/-- RESTART asks for a unit restart: once its reply has been sent, or, as a broadcast, at once (R158). -/
def evalRestart (broadcast : Bool) (_ : List Byte) (s : State) : Except Status Taken :=
  .ok { after := { s with restart := if broadcast then .due else .afterReply } }

/-- LINK_STATS reports the three link counters and clears them with its flag set (R156). -/
def evalLinkStats (body : List Byte) (s : State) : Except Status Taken := do
  let clear ← enumField (onOffOfCode (byteAt body 0))
  .ok
    { fields := byte2 s.rx.checkFail ++ byte2 s.rx.gap ++ byte2 s.rx.overrun
      after := if clear then { s with rx := { s.rx with checkFail := 0, gap := 0, overrun := 0 } } else s }

/-- A notice as its record of 12 bytes (R164). -/
def Notice.record (n : Notice) : List Byte :=
  byte1 n.kind.code ++ byte1 n.source.code ++ padTo 6 0 n.detail ++ byte4 n.stamp.toNat

/-- NOTICES reports and empties the missed set, and fetches and removes up to n oldest notices (R154). -/
def evalNotices (body : List Byte) (s : State) : Except Status Taken :=
  let n := contField 1 8 (byteAt body 0)
  let k := min n.stored.toNat s.notices.length
  .ok
    { adjusted := n.adjusted
      fields := byte4 s.missed.toNat ++ byte1 k ++ (s.notices.take k).flatMap Notice.record
      after := { s with missed := 0, notices := s.notices.drop k } }

def execIdent (m : Msg) (s : State) : Host.Outcome State Fault Refusal :=
  onUnit (deliver .ident evalIdent m) s

def execRestart (m : Msg) (s : State) : Host.Outcome State Fault Refusal :=
  onUnit (deliver .restart (evalRestart (isBroadcast m s)) m) s

def execLinkStats (m : Msg) (s : State) : Host.Outcome State Fault Refusal :=
  onUnit (deliver .linkStats evalLinkStats m) s

def execNotices (m : Msg) (s : State) : Host.Outcome State Fault Refusal :=
  onUnit (deliver .notices evalNotices m) s

/-- A frame of a bad kind (R151). A kind byte that R151's first test passes is no such frame, and nothing happens. -/
def execBadKindFrame (kind : Byte) (m : Msg) (s : State) : Host.Outcome State Fault Refusal :=
  onUnit (fun t => if (readKind kind).isSome then t else deliverBadKind kind m t) s

end Sys2Proof.Machine
end

