-- ==== Sys2Proof/Machine/LoudCommands.lean ====
section
/-! DEFINITION. The loudness messages: LOUD_CONFIG (R99), LOUD_QUERY (R97) and LOUD_RESTART (R96). -/
namespace Sys2Proof.Machine

/-- The eleven continuous settings of a LOUD_CONFIG body, in its order, each clamped to its range (R99, R163). -/
def readLevels (body : List Byte) : List Clamped :=
  [(-400, -100), (0, 300), (0, 200), (1, 50), (1, 100), (0, 100), (10, 300), (-100, 0), (-300, 120), (-900, -300),
    (0, 600)].mapIdx fun i r => contField r.1 r.2 (signedAt body (2 + 2 * i))

/-- The stored value of the i-th continuous setting. -/
def levelAt (l : List Clamped) (i : Nat) : Int := (l.getD i ⟨0, false⟩).stored

/-- The pending copy a LOUD_CONFIG writes whole (R99). -/
def settingsOf (mode : LoudMode) (l : List Clamped) (link : Nat) : LoudSettings where
  mode := mode
  target := levelAt l 0
  cutMax := levelAt l 1
  boostMax := levelAt l 2
  rise := levelAt l 3
  fall := levelAt l 4
  holdOff := (levelAt l 5).toNat
  window := (levelAt l 6).toNat
  ceiling := levelAt l 7
  overThreshold := levelAt l 8
  silenceThreshold := levelAt l 9
  silenceTime := (levelAt l 10).toNat
  link := link

/-- A link group code, 0 to 4 (R99). -/
def linkOfCode (n : Nat) : Option Nat := if n ≤ 4 then some n else none

/-- A copy of the settings as 24 bytes, in the order of LOUD_CONFIG (R163). -/
def LoudSettings.fields (l : LoudSettings) : List Byte :=
  byte1 l.mode.code ++ signed2 l.target ++ signed2 l.cutMax ++ signed2 l.boostMax ++ signed2 l.rise ++
    signed2 l.fall ++ byte2 l.holdOff ++ byte2 l.window ++ signed2 l.ceiling ++ signed2 l.overThreshold ++
    signed2 l.silenceThreshold ++ byte2 l.silenceTime ++ byte1 l.link

/-- LOUD_CONFIG (R99). -/
def evalLoudConfig (body : List Byte) (s : State) : Except Status Taken := do
  let p ← progIndex (byteAt body 0)
  let mode ← enumField (modeOfCode (byteAt body 1))
  let link ← enumField (linkOfCode (byteAt body 24))
  let levels := readLevels body
  require ((s.prog p).state != .undefined) .wrongState
  let stored := settingsOf mode levels link
  .ok
    { adjusted := levels.any (·.adjusted)
      fields := stored.fields
      after := s.onProg p fun g => { g with loud := { g.loud with pending := stored } } }

/-- LOUD_RESTART (R96): window, history and silence timer; the gain and the block in progress are kept. -/
def restartMeasurement (p : ProgId) (s : State) : State :=
  setProgCond p .silence false (s.onProg p fun g => { g with loud := g.loud.emptied.loadSilence })

def evalLoudRestart (body : List Byte) (s : State) : Except Status Taken := do
  let p ← progIndex (byteAt body 0)
  require ((s.prog p).state != .undefined) .wrongState
  .ok { after := restartMeasurement p s }

/-- The LOUD_QUERY reply fields (R97, R163). -/
def loudQueryFields (s : State) (p : ProgId) : List Byte :=
  let l := (s.prog p).loud
  levelBytes l.lastB ++ levelBytes l.lastM ++ byte1 l.lastVerdict.code ++ levelBytes l.integrated ++
    byte2 l.window.length ++ byte2 l.active.window ++ byte1 l.history.length ++ signed2 l.ownGain ++
    signed2 l.appliedGain ++ byte2 l.silenceTimer ++ bool1 (s.progCond p .silence) ++ byte2 l.ceilingBlocks ++
    byte1 l.active.mode.code

/-- LOUD_QUERY (R97). -/
def evalLoudQuery (body : List Byte) (s : State) : Except Status Taken := do
  let p ← progIndex (byteAt body 0)
  .ok { fields := loudQueryFields s p, after := s }

def execLoudConfig (m : Msg) (s : State) : Host.Outcome State Fault Refusal :=
  onUnit (deliver .loudConfig evalLoudConfig m) s

def execLoudQuery (m : Msg) (s : State) : Host.Outcome State Fault Refusal :=
  onUnit (deliver .loudQuery evalLoudQuery m) s

def execLoudRestart (m : Msg) (s : State) : Host.Outcome State Fault Refusal :=
  onUnit (deliver .loudRestart evalLoudRestart m) s

end Sys2Proof.Machine
end

