-- ==== Sys2Proof/Machine/SignalPath.lean ====
section
/-! DEFINITION. One output sample (00_scope.md section 3): the converters (R32), slot selection (R56), the ring (R116,
R117), the measurement tap (R82, R83), the gain stage (R106), the limiter (R107, R109), the output fade (R52, R123) and
the output port (R59); and the passing of master ticks. -/
namespace Sys2Proof.Machine

/-! ## Master ticks -/

/-- The House Reference Monitor's loss timer stops at 2,048 master ticks (R39). -/
def Monitor.pass (n : Nat) (m : Monitor) : Monitor := { m with timer := m.timer.map fun t => max t (min (t + n) 2048) }

/-- The gap limit applies in every state from ADDRESS to CHECK and in SKIP (R147). -/
def RxState.timed : RxState → Bool
  | .hunt => false
  | .busy => false
  | _ => true

def Receiver.pass (n : Nat) (r : Receiver) : Receiver :=
  if r.state.timed then { r with gapTimer := r.gapTimer + n } else r

/-- n master ticks pass: every loss timer, span counter and gap timer counts (R12, R15, R39, R147). -/
def passTicks (n : Nat) (s : State) : State :=
  let s1 := forEach allFeeds (fun f t => t.onPort f (Port.pass n)) s
  { s1 with monitor := s1.monitor.pass n, rx := s1.rx.pass n, tick := s1.tick + n }

/-! ## One program at one output sample -/

/-- A channel of a converted frame. -/
def pickChan (fr : Rat × Rat) : Chan → Rat
  | .a => fr.1
  | .b => fr.2

/-- The samples slot selection takes from the converted frames through the swap fade (R56). -/
def selectSlots (frames : List (Rat × Rat)) (g : Program) : List Rat :=
  g.currentSet.map fun x => pickChan (frames.getD x.feed.val (0, 0)) x.chan * ((g.swap.level : Rat) / 480)

/-- The swap fade level after an output sample (R65, R69). -/
def Swap.fade (w : Swap) : Swap :=
  match w.phase with
  | .none => w
  | .fadeOut => { w with level := w.level - 1 }
  | .fadeIn => { w with level := satAdd Config.fadeFull w.level 1 }

/-- The SLEW step's progress after an output sample (R121). -/
def DelayRec.stepOn (d : DelayRec) : DelayRec :=
  match d.op with
  | .slew => { d with progress := satAdd d.stepInterval.samples d.progress 1 }
  | .none => d
  | .cutOut => d
  | .cutIn => d

/-- The output fade level after an output sample: a CUT moves it by 2, a start, restart or stop fade by 1 (R52, R53,
R123). -/
def Program.fadedLevel (g : Program) : Nat :=
  match g.delay.op with
  | .cutOut => g.outLevel - 2
  | .cutIn => satAdd Config.fadeFull g.outLevel 2
  | _ => match g.outDir with
    | .none => g.outLevel
    | .fadeIn => satAdd Config.fadeFull g.outLevel 1
    | .fadeOut => g.outLevel - 1

/-- A weighting filter whose memory is all zero gives zero for zero and stays at zero; anything else is the part's own
filter, whose coefficients are not given (R82). -/
def weighOne (mem : List Rat) (x : Rat) : List Rat × Rat :=
  if x == 0 && mem.all (· == 0) then (mem, 0) else (Config.weightedMemory mem x, Config.weightedSample mem x)

/-- The tap weights every slot's sample and adds its square to the slot's accumulator (R82, R83). -/
def Loudness.tap (l : Loudness) (ys : List Rat) : Loudness :=
  let ws := List.zipWith weighOne l.weighting ys
  { l with
    weighting := ws.map (·.1)
    accumulators := List.zipWith (fun a w => a + w.2 * w.2) l.accumulators ws }

/-- The limiter at one output sample: the frame leaving the lookahead times the gain formed for it, the new frame
joining; BYPASS passes frames unchanged (R103, R107, R109). -/
def Loudness.limit (l : Loudness) (zs : List Rat) : Loudness × List Rat :=
  let look := fullLookahead l.lookahead
  let leaving := look.headD []
  let gain := if l.active.mode = .bypass then 1 else limiterGainOf l.active.ceiling l.limiterGain look
  ({ l with
      lookahead := look.drop 1 ++ [zs], limiterGain := gain
      heldDown := if gain < 1 then satAdd Config.blockSamples l.heldDown 1 else l.heldDown },
    leaving.map (· * gain))

/-- A value relative to full scale as the 24-bit sample of an output slot: itself where it is one, else the part's own
rounding, which is not given (R59). -/
def outputSampleWord (x : Rat) : Sample :=
  if (x * 8388608).den = 1 ∧ -8388608 ≤ (x * 8388608).num ∧ (x * 8388608).num < 8388608 then
    BitVec.ofInt 24 (x * 8388608).num
  else Config.roundSample x

/-- The 32 bits of one output slot: the sample in bits 31 to 8, zero below (R59). -/
def slotWord (x : Rat) : BitVec 32 := outputSampleWord x ++ (0 : BitVec 8)

/-- The output frame of a program of c slots: its samples in slots 0 to c − 1, zero above (R59). -/
def outputFrame (c : Nat) (os : List Rat) : Vector (BitVec 32) 8 :=
  .ofFn fun k => if k.val < c then slotWord (os.getD k.val 0) else 0

/-- What one output sample makes of a program that runs: the record after it, the Delay Store after its ring write, and
its output frame. Each level is applied as it stands and then moved (log 13). -/
def Program.sample (frames : List (Rat × Rat)) (slotTrims : List Nat) (m : Memory) (g : Program) :
    Program × Memory × Vector (BitVec 32) 8 :=
  let m1 := g.delay.writeSlots 0 (selectSlots frames g) m
  let d1 := g.delay.countWritten.stepOn
  let ys := (List.range g.slots).map fun k => d1.readSlot m1 k (slotTrims.getD k 0)
  let l1 := g.loud.tap ys
  let zs := ys.map (· * linear l1.presentGain)
  let r := l1.ramp.limit zs
  let os := r.2.map (· * ((g.outLevel : Rat) / 480))
  ({ g with swap := g.swap.fade, outLevel := g.fadedLevel, loud := r.1, delay := d1.advance }, m1, outputFrame g.slots os)

/-- One program and its output port at one output sample; a program that does not run sends zeros (R43, R59). -/
def programSample (frames : List (Rat × Rat)) (p : ProgId) (s : State) : State :=
  let g := s.prog p
  if g.active then
    let r := g.sample frames (trims s g) s.store
    { (s.setProg p r.1).setPort p r.2.2 with store := r.2.1 }
  else s.setPort p zeroFrame

/-- The converters advance; a slip reaches its condition (R32 to R36). -/
def converterSample (f : FeedId) (s : State) : State := keepConverter f (s.feed f).conv.advance s

/-- One output sample: what is left of its 512 master ticks passes, the converters deliver, and every program and
output port is served (R20, R56, R59). -/
def outputSample (s : State) : State :=
  let s1 := forEach allFeeds converterSample (passTicks (Config.ticksPerSample - s.tick) s)
  let frames := allFeeds.map fun f => (s1.feed f).conv.delivered
  let s2 := forEach allProgs (programSample frames) s1
  { s2 with tick := 0, sampleInBlock := satAdd Config.blockSamples s2.sampleInBlock 1 }

end Sys2Proof.Machine
end

