-- ==== Sys2Proof/Machine/Swaps.lean ====
section
/-! DEFINITION. The swap's own events and messages (04): SWITCH (R66 to R68), the end of a swap (R69), the return (R73,
R74), the silence timeout (R93), SOURCE_SELECT (R78) and FAILOVER_CONFIG (R79). -/
namespace Sys2Proof.Machine

/-! ## The SWITCH -/

/-- The stack once it ends at a rank: cut back to it where it is on the stack, else with it pushed (R64, R66). -/
def reachRank (r : Rank) (stack : List Rank) : List Rank := stack.takeWhile (· != r) ++ [r]

/-- The SWITCH that leaves the current set as it is: FADE_IN begins, and NO_SOURCE is judged (R66, R69, R76). -/
def keepSet (p : ProgId) (cause : SwapCause) (s : State) : State :=
  judgeNoSource p (s.onProg p fun g => { g with swap := { g.swap with phase := .fadeIn, cause := some cause } })

/-- With reset-on-swap on, a real change empties the integration window and keeps the history (R68, R92). -/
def Program.swapReset (g : Program) : Program :=
  if g.resetOnSwap then { g with loud := { g.loud with window := [] } } else g

/-- A SWITCH that changes the current set (R68): the stack, FADE_IN, the return timer, the delay, the window, the
conditions, and SOURCE_CHANGED from the origin rank. -/
def changeSet (p : ProgId) (stack : List Rank) (cause : SwapCause) (s : State) : State :=
  let s1 := s.onProg p fun g =>
    ({ g with stack := stack, swap := { g.swap with phase := .fadeIn, cause := some cause } } : Program).zeroReturn.swapReset
  let s2 := judgeNoSource p (judgeOnBackup p (recomputeDelay p s1))
  sourceChanged p (s.prog p).swap.origin stack.getLast? (some cause) s2

/-- The SWITCH of a failover swap (R66). -/
def failoverSwitch (p : ProgId) (cause : SwapCause) (s : State) : State :=
  let g := s.prog p
  if currentEligible s g then keepSet p cause s
  else match lowestEligible s g with
    | none => keepSet p cause s
    | some r => changeSet p (reachRank r g.stack) cause s

/-- The SWITCH of a return swap (R67). -/
def returnSwitch (p : ProgId) (s : State) : State :=
  let g := s.prog p
  if returnEligible s g then changeSet p g.stack.dropLast .return s else failoverSwitch p .failover s

/-- The SWITCH of a select swap for a rank, whose mark is cleared first (R67). -/
def selectSwitch (p : ProgId) (r : Rank) (s : State) : State :=
  let s1 := setMark p r false s
  if eligible s1 (s1.prog p) r then changeSet p [r] .select s1 else failoverSwitch p .failover s1

/-- The swap fade level of a RUNNING program has reached 0 in FADE_OUT (R65). -/
def switchIsDue (s : State) (p : ProgId) : Bool :=
  (s.prog p).running && (s.prog p).swap.phase == .fadeOut && (s.prog p).swap.level == 0

/-- The SWITCH by the swap's cause (R66, R67). -/
def swapSwitch (p : ProgId) (s : State) : State :=
  match (s.prog p).swap.cause with
  | some .return => returnSwitch p s
  | some .select => match (s.prog p).swap.selected with
    | some r => selectSwitch p r s
    | none => failoverSwitch p .failover s
  | some .silence => failoverSwitch p .silence s
  | some .failover => failoverSwitch p .failover s
  | none => failoverSwitch p .failover s

/-! ## The end of a swap, and returns -/

/-- The swap fade level has reached 480 in FADE_IN (R69). -/
def swapEndIsDue (s : State) (p : ProgId) : Bool :=
  (s.prog p).swap.phase == .fadeIn && (s.prog p).swap.level == Config.fadeFull

/-- A return swap begins and the return timer becomes 0 (R65, R73, R74). -/
def Program.startReturn (g : Program) : Program := (g.startFadeOut .return none).zeroReturn

/-- A program that makes returns: RUNNING, auto-return on, two or more ranks on the stack (R69, R73). -/
def Program.returns (g : Program) : Bool := g.running && g.autoReturn && decide (2 ≤ g.stack.length)

/-- The end of a swap on the record, with the check for a return that fell due during it (R69). -/
def Program.endSwap (g : Program) : Program :=
  let g1 : Program := { g with swap := { level := g.swap.level } }
  if g1.returns && decide (g1.returnHold ≤ g1.returnTimer) then g1.startReturn else g1

/-- The return timer's work at a block close (R73), and whether the return falls due at it (R74). -/
def countReturn (p : ProgId) (s : State) : State :=
  let g := s.prog p
  if g.returns then
    if returnEligible s g then
      let t := satAdd 6000 g.returnTimer 1
      s.onProg p fun g => { g with returnTimer := t, returnFell := decide (g.returnHold ≤ t) && !g.swapping }
    else s.onProg p Program.zeroReturn
  else s.onProg p fun g => { g with returnFell := false }

/-- A return has fallen due at the last block close and can begin (R74). -/
def returnIsDue (s : State) (p : ProgId) : Bool :=
  (s.prog p).returnFell && (s.prog p).returns && !(s.prog p).swapping

/-- A return that has fallen due at the last block close begins (R74). -/
def beginReturn (p : ProgId) (s : State) : State :=
  if returnIsDue s p then s.onProg p Program.startReturn else s

/-! ## Silence -/

/-- The silence timer of a measuring program with no swap in flight stands at 0 and SILENCE is not true (R93). No block
close leaves a program so: SILENCE becomes true with the timer's last count (log 36). -/
def silenceIsDue (s : State) (p : ProgId) : Bool :=
  let g := s.prog p
  g.active && !g.swapping && g.loud.silenceTimer == 0 && g.loud.active.silenceTime != 0 && !s.progCond p .silence

/-! ## Messages -/

/-- The current rank selected again (R78): the stack holds it alone, the return timer becomes 0, and its mark is
cleared. -/
def selectCurrent (p : ProgId) (r : Rank) (s : State) : State :=
  setMark p r false (s.onProg p fun g => ({ g with stack := [r] } : Program).zeroReturn)

/-- SOURCE_SELECT (R78). An absent rank is refused with WRONG_STATE while a swap is in flight too (log 35). -/
def evalSourceSelect (body : List Byte) (s : State) : Except Status Taken := do
  let p ← progIndex (byteAt body 0)
  let r ← rankIndex (byteAt body 1)
  let g := s.prog p
  require (g.running && (g.setAt r).isSome) .wrongState
  require (!g.swapping) .busy
  .ok
    { fields := byte1 r.val
      after := if g.currentRank = some r then selectCurrent p r s
        else s.onProg p (·.startFadeOut .select (some r)) }

/-- The three failover settings stored; auto-return off zeroes the return timer (R79). -/
def Program.storeFailover (g : Program) (auto : Bool) (hold : Nat) (reset : Bool) : Program :=
  let g1 : Program := { g with autoReturn := auto, returnHold := hold, resetOnSwap := reset }
  if auto then g1 else g1.zeroReturn

/-- FAILOVER_CONFIG (R79). -/
def evalFailoverConfig (body : List Byte) (s : State) : Except Status Taken := do
  let p ← progIndex (byteAt body 0)
  let auto ← enumField (onOffOfCode (byteAt body 1))
  let reset ← enumField (onOffOfCode (byteAt body 4))
  let hold := contField 10 6000 (wordAt body 2)
  require ((s.prog p).state != .undefined) .wrongState
  .ok
    { adjusted := hold.adjusted
      fields := bool1 auto ++ byte2 hold.stored.toNat ++ bool1 reset
      after := s.onProg p (·.storeFailover auto hold.stored.toNat reset) }

/-! ## Meanings -/

def execSourceSelect (m : Msg) (s : State) : Host.Outcome State Fault Refusal :=
  onUnit (deliver .sourceSelect evalSourceSelect m) s

def execFailoverConfig (m : Msg) (s : State) : Host.Outcome State Fault Refusal :=
  onUnit (deliver .failoverConfig evalFailoverConfig m) s

/-- The SWITCH of a swap (R66 to R68). -/
def execSwapSwitch (p : ProgId) (s : State) : Host.Outcome State Fault Refusal :=
  onUnit (fun t => if switchIsDue t p then swapSwitch p t else t) s

/-- The end of a swap (R69). -/
def execSwapEnd (p : ProgId) (s : State) : Host.Outcome State Fault Refusal :=
  onUnit (fun t => if swapEndIsDue t p then t.onProg p Program.endSwap else t) s

/-- A return that has fallen due begins (R74). -/
def execReturnDue (p : ProgId) (s : State) : Host.Outcome State Fault Refusal :=
  onUnit (beginReturn p) s

/-- The silence timer has run out (R93). -/
def execSilenceTimeout (p : ProgId) (s : State) : Host.Outcome State Fault Refusal :=
  onUnit (fun t => if silenceIsDue t p then setProgCond p .silence true t else t) s

end Sys2Proof.Machine
end

