-- ==== Sys2Proof/Machine/Receiver.lean ====
section
/-! DEFINITION. The receiver of the control line (R147 to R149): bytes, frames, skipping, the gap, overruns, and the
end of a reply. -/
namespace Sys2Proof.Machine

/-- What each message kind does with its body. -/
def evalKind (k : Kind) (broadcast : Bool) : List Byte → State → Except Status Taken :=
  match k with
  | .ident => evalIdent
  | .restart => evalRestart broadcast
  | .linkStats => evalLinkStats
  | .notices => evalNotices
  | .feedConfig => evalFeedConfig
  | .feedQuery => evalFeedQuery
  | .progDefine => evalProgDefine
  | .progClear => evalProgClear
  | .setDefine => evalSetDefine
  | .progStart => evalProgStart
  | .progStop => evalProgStop
  | .progRestart => evalProgRestart
  | .progQuery => evalProgQuery
  | .sourceSelect => evalSourceSelect
  | .failoverConfig => evalFailoverConfig
  | .loudConfig => evalLoudConfig
  | .loudQuery => evalLoudQuery
  | .loudRestart => evalLoudRestart
  | .delayReserve => evalDelayReserve
  | .delayTarget => evalDelayTarget
  | .delayQuery => evalDelayQuery
  | .poolQuery => evalPoolQuery
  | .alarmConfig => evalAlarmConfig
  | .alarmQuery => evalAlarmQuery
  | .alarmAck => evalAlarmAck
  | .alarmScan => evalAlarmScan

/-- The unit address field of an address byte (section 10.1). -/
def addressField (b : Byte) : BitVec 5 := b.truncate 5

/-- An accepted frame is handed to the Command Unit (R148, R150). -/
def acceptFrame (s : State) : State :=
  let r := s.rx
  let broadcast := addressField r.address == 31
  match readKind r.kind with
  | none => deliverBadKind r.kind { broadcast := broadcast, check := r.kind.getLsbD 6, body := r.body } s
  | some (k, check) =>
    let m : Msg := { broadcast := broadcast, check := check, body := r.body }
    deliver k (evalKind k (isBroadcast m s)) m s

def State.withRx (s : State) (r : Receiver) : State := { s with rx := r }

/-- A frame cannot be read, or fails its check: it is discarded and counted (R148). -/
def Receiver.failCheck (r : Receiver) : Receiver :=
  { r with state := .hunt, checkFail := satAdd Config.counterLimit r.checkFail 1 }

/-- The receiver's states at the length byte (R147, R148). -/
def Receiver.takeLength (r : Receiver) (u : BitVec 5) (b : Byte) : Receiver :=
  if 160 < b.toNat then r.failCheck
  else if r.address.getLsbD 7 || (addressField r.address != u && addressField r.address != 31) then
    { r with state := .skip, length := b, left := b.toNat + 1 }
  else if b = 0 then { r with state := .check, length := b, body := [], left := 0 }
  else { r with state := .body, length := b, body := [], left := b.toNat }

/-- A body byte (R147). -/
def Receiver.takeBody (r : Receiver) (b : Byte) : Receiver :=
  { r with state := if r.left ≤ 1 then .check else .body, body := r.body ++ [b], left := r.left - 1 }

/-- A byte of a skipped frame (R148). -/
def Receiver.takeSkip (r : Receiver) : Receiver :=
  { r with state := if r.left ≤ 1 then .hunt else .skip, left := r.left - 1 }

/-- The 8-bit sum judged at the check byte (R148). -/
def Receiver.sumWith (r : Receiver) (b : Byte) : Byte :=
  ([r.address, r.kind, r.length] ++ r.body ++ [b]).foldl (· + ·) 0

/-- The receiver takes one byte (R147 to R149). The gap timer runs anew from its end. -/
def takeByte (b : Byte) (s : State) : State :=
  let r : Receiver := { s.rx with gapTimer := 0 }
  match s.rx.state with
  | .hunt => if b = 0x5A#8 then s.withRx { r with state := .address } else s
  | .address => s.withRx { r with state := .kind, address := b }
  | .kind => s.withRx { r with state := .length, kind := b }
  | .length => s.withRx (r.takeLength s.unitAddr b)
  | .body => s.withRx (r.takeBody b)
  | .check => if r.sumWith b = 0 then acceptFrame (s.withRx r) else s.withRx r.failCheck
  | .skip => s.withRx r.takeSkip
  | .busy => countOverruns 1 s

/-- The gap timer has run for n byte times: n × 10 bit periods at the line rate (R147), counted in master ticks. -/
def gapReaches (n : Nat) (s : State) : Bool :=
  s.rx.state.timed && decide (n * 10 * 24576000 ≤ s.rx.gapTimer * lineRate s.baud)

/-- The frame is abandoned (R147). -/
def abandonFrame (s : State) : State :=
  s.withRx { s.rx with state := .hunt, gap := satAdd Config.counterLimit s.rx.gap 1 }

/-- The last bit of the reply has been sent: the receiver enters HUNT, and a restart waiting for it is due (R149,
R158). -/
def endReply (s : State) : State :=
  { toHunt s with reply := none, restart := if s.restart = .afterReply then .due else s.restart }

def execByteReceived (b : Byte) (s : State) : Host.Outcome State Fault Refusal := onUnit (takeByte b) s

/-- No byte has begun within 4 byte times of the last (R147). -/
def execReceiverGapTimeout (s : State) : Host.Outcome State Fault Refusal :=
  onUnit (fun t => if gapReaches 4 t then abandonFrame t else t) s

/-- The reply has been sent (R149). -/
def execReplySent (s : State) : Host.Outcome State Fault Refusal :=
  onUnit (fun t => if t.rx.state = .busy then endReply t else t) s

end Sys2Proof.Machine
end

