-- ==== Sys2Proof/Machine/UnitEvents.lean ====
section
/-! DEFINITION. The events of the feed pins, the clock, the house reference and the resets: frame edges and subframes
(R1, R7), the loss of a feed (R13), the output sample (R56), the block close (R85, R135, R155), HREF (R39, R40), the
power-on reset (R157) and the unit restart (R158). -/
namespace Sys2Proof.Machine

/-! ## The block close -/

/-- Each of a list of works once, where it stands first. -/
def onceEach : List CloseWork → List CloseWork
  | [] => []
  | w :: ws => w :: (onceEach ws).filter (· != w)

def isMeasure : CloseWork → Bool
  | .measure _ => true
  | _ => false

/-- The work of a close in the order where nothing comes first of choice (log 23). -/
def allWorks : List CloseWork :=
  allProgs.map .measure ++ [.levels] ++ allFeeds.map .slip ++ allEntries.map .alarm ++ allProgs.map .returns

/-- The gain laws that stand behind the link-group minimum come to stand just before it (R104). -/
def measuresForward (works : List CloseWork) : List CloseWork :=
  let behind := (works.dropWhile (· != .levels)).drop 1
  works.takeWhile (· != .levels) ++ behind.filter isMeasure ++ .levels :: behind.filter (!isMeasure ·)

/-- All the work of a close, each piece once: what the order puts first, and then the rest (log 23). -/
def closeWorks (o : CloseOrder) : List CloseWork :=
  let head := onceEach o.first
  measuresForward (head ++ allWorks.filter fun w => !head.contains w)

/-- An alarm timer that runs counts, and one that has run out raises or releases its entry, unless that is left to the
entry's own event (R135). -/
def closeAlarm (apart : Bool) (e : EntryId) (s : State) : State :=
  let t := countTimer e s
  if apart then t else expireClear e (expireRaise e t)

/-- A return timer counts, and a return that falls due begins, unless that is left to the program's own event (R73,
R74). -/
def closeReturn (apart : Bool) (p : ProgId) (s : State) : State :=
  let t := countReturn p s
  if apart then t else beginReturn p t

/-- One piece of the work of a close. `formed` says of each program whether its block is measured at this close. -/
def closeWork (o : CloseOrder) (formed : ProgId → Bool) : CloseWork → State → State
  | .slip f => setFeedCond f .srcSlip false
  | .measure p => closeController p
  | .levels => closeLevels formed
  | .alarm e => closeAlarm o.expiriesApart e
  | .returns p => closeReturn o.returnsApart p

/-- A block close (R36, R73, R85, R135, R155): the counter advances before any work of the close, and the work is done
piece by piece in its order (log 23). -/
def blockClose (o : CloseOrder) (s : State) : State :=
  forEach (closeWorks o) (closeWork o fun p => formsBlock (s.prog p))
    { s with blockCounter := s.blockCounter + 1, sampleInBlock := 0 }

/-! ## House reference -/

/-- An HREF edge restarts the loss timer, ends a loss, and the master clock follows the reference (R39, R40). -/
def refEdge (s : State) : State :=
  setCond houseRefEntry false { s with monitor := { lost := false, timer := some 0, clock := .following } }

/-- The monitor's loss timer has reached 2,048 master ticks (R39). -/
def refLossIsDue (s : State) : Bool :=
  !s.monitor.lost && match s.monitor.timer with
    | none => false
    | some t => decide (2048 ≤ t)

/-- The reference is declared lost (R39). -/
def loseRef (s : State) : State :=
  setCond houseRefEntry true { s with monitor := { lost := true, timer := none, clock := .held } }

/-! ## Unit restart (R158) -/

/-- A feed after a unit restart (R19, R42, R80): the configuration is kept, all else is clean, and an enabled port
starts as at an enable with its converter in SEARCH. -/
def Feed.restarted (x : Feed) : Feed :=
  let q := x.port
  { port :=
      { enable := q.enable, expected := q.expected, parityCheck := q.parityCheck, honourValidity := q.honourValidity
        lossTimer := if q.enable then some 0 else none }
    conv := { state := if q.enable then .search else .idle }
    healthy := q.enable }

/-- A program after a unit restart (R61, R80, R98, R112, R130). -/
def Program.unitRestarted (g : Program) : Program :=
  { g with
    state := if g.active then .defined else g.state
    stack := [], swap := {}, outLevel := 0, outDir := .none, marks := .replicate 4 false
    returnTimer := 0, returnFell := false, loud := g.loud.unitRestarted
    delay := { g.delay.flush.noOp with dtgt := 0, dcur := 0 } }

/-- An alarm entry after a unit restart: its configuration is kept (R133). -/
def Entry.restarted (x : Entry) : Entry := { config := x.config }

/-- The unit restart (R158): every block's restart changes, the receiver, the queue, the counter and the cause, and
then RESTARTED. The straps, the pool, the store, and the positions of the output sample and the block are kept. -/
def unitRestart (s : State) : State :=
  pushNotice .restarted .unit []
    { s with
      feeds := s.feeds.map Feed.restarted
      monitor := { s.monitor with lost := false, timer := some 0 }
      progs := s.progs.map Program.unitRestarted
      entries := s.entries.map Entry.restarted
      conds := .replicate 137 false
      notices := [], missed := 0, blockCounter := 0, rx := {}, reply := none, restart := .none
      resetCause := .restart
      ports := .replicate 8 zeroFrame }

/-! ## Power-on reset (R157) -/

/-- A power-on reset begins: no frame is received, no reply is sent, ATTN is released, the lamps are dark, and every
output slot carries zero. -/
def enterReset (s : State) : State :=
  { s with
    inReset := true, reply := none, rx := { s.rx with state := .hunt }, restart := .none
    ports := .replicate 8 zeroFrame }

/-- A power-on reset ends: every block takes its power-on values with the straps read now. The waiting commands and the
model's counter of choices are no part of the unit. -/
def leaveReset (uaddr : BitVec 5) (baud : BitVec 2) (s : State) : State :=
  { State.powerOn uaddr baud with pending := s.pending, freeCount := s.freeCount }

/-! ## Meanings -/

/-- A frame-start edge (R1). -/
def execFrameEdge (f : FeedId) (frameFirst : Bool) (s : State) : Host.Outcome State Fault Refusal :=
  onUnit (frameEdge f frameFirst) s

/-- A complete subframe (R7). -/
def execSubframeJudged (f : FeedId) (w : BitVec 32) (s : State) : Host.Outcome State Fault Refusal :=
  onUnit (subframeReceived f w) s

/-- The loss timer of a feed expires (R13). -/
def execFeedLossTimeout (f : FeedId) (lossFirst : Bool) (s : State) : Host.Outcome State Fault Refusal :=
  onUnit (fun t => if lossIsDue t f then declareLoss f lossFirst t else t) s

/-- One output sample (R56). -/
def execOutputSample (s : State) : Host.Outcome State Fault Refusal := onUnit outputSample s

/-- A block close (R85). -/
def execBlockClose (order : CloseOrder) (s : State) : Host.Outcome State Fault Refusal := onUnit (blockClose order) s

/-- An HREF edge (R40). -/
def execHouseRefEdge (s : State) : Host.Outcome State Fault Refusal := onUnit refEdge s

/-- The loss of the house reference (R39). -/
def execHouseRefLossTimeout (s : State) : Host.Outcome State Fault Refusal :=
  onUnit (fun t => if refLossIsDue t then loseRef t else t) s

/-- A unit restart (R158). -/
def execUnitRestart (s : State) : Host.Outcome State Fault Refusal := onUnit unitRestart s

/-- The start of a power-on reset (R157). -/
def execPowerOnResetStart (s : State) : Host.Outcome State Fault Refusal := .next (judgePins (enterReset s))

/-- The end of a power-on reset (R157). -/
def execPowerOnReset (uaddr : BitVec 5) (baud : BitVec 2) (s : State) : Host.Outcome State Fault Refusal :=
  .next (judgePins (leaveReset uaddr baud s))

end Sys2Proof.Machine
end

