-- ==== Sys2Proof/Machine/Dispatch.lean ====
section
/-! DEFINITION. One arm for each command: the meaning it calls. -/
namespace Sys2Proof.Machine

def exec (i : Instr) (s : State) : Host.Outcome State Fault Refusal :=
  match i with
  | .ident m => Sys2Proof.Machine.execIdent m s
  | .restart m => Sys2Proof.Machine.execRestart m s
  | .linkStats m => Sys2Proof.Machine.execLinkStats m s
  | .notices m => Sys2Proof.Machine.execNotices m s
  | .feedConfig m => Sys2Proof.Machine.execFeedConfig m s
  | .feedQuery m => Sys2Proof.Machine.execFeedQuery m s
  | .progDefine m => Sys2Proof.Machine.execProgDefine m s
  | .progClear m => Sys2Proof.Machine.execProgClear m s
  | .setDefine m => Sys2Proof.Machine.execSetDefine m s
  | .progStart m => Sys2Proof.Machine.execProgStart m s
  | .progStop m => Sys2Proof.Machine.execProgStop m s
  | .progRestart m => Sys2Proof.Machine.execProgRestart m s
  | .progQuery m => Sys2Proof.Machine.execProgQuery m s
  | .sourceSelect m => Sys2Proof.Machine.execSourceSelect m s
  | .failoverConfig m => Sys2Proof.Machine.execFailoverConfig m s
  | .loudConfig m => Sys2Proof.Machine.execLoudConfig m s
  | .loudQuery m => Sys2Proof.Machine.execLoudQuery m s
  | .loudRestart m => Sys2Proof.Machine.execLoudRestart m s
  | .delayReserve m => Sys2Proof.Machine.execDelayReserve m s
  | .delayTarget m => Sys2Proof.Machine.execDelayTarget m s
  | .delayQuery m => Sys2Proof.Machine.execDelayQuery m s
  | .poolQuery m => Sys2Proof.Machine.execPoolQuery m s
  | .alarmConfig m => Sys2Proof.Machine.execAlarmConfig m s
  | .alarmQuery m => Sys2Proof.Machine.execAlarmQuery m s
  | .alarmAck m => Sys2Proof.Machine.execAlarmAck m s
  | .alarmScan m => Sys2Proof.Machine.execAlarmScan m s
  | .badKindFrame kind m => Sys2Proof.Machine.execBadKindFrame kind m s
  | .frameEdge f frameFirst => Sys2Proof.Machine.execFrameEdge f frameFirst s
  | .subframeJudged f word => Sys2Proof.Machine.execSubframeJudged f word s
  | .feedLossTimeout f lossFirst => Sys2Proof.Machine.execFeedLossTimeout f lossFirst s
  | .outputSample => Sys2Proof.Machine.execOutputSample s
  | .startFadeEnd p => Sys2Proof.Machine.execStartFadeEnd p s
  | .stopFadeEnd p => Sys2Proof.Machine.execStopFadeEnd p s
  | .swapSwitch p => Sys2Proof.Machine.execSwapSwitch p s
  | .swapEnd p => Sys2Proof.Machine.execSwapEnd p s
  | .blockClose order => Sys2Proof.Machine.execBlockClose order s
  | .silenceTimeout p => Sys2Proof.Machine.execSilenceTimeout p s
  | .returnDue p => Sys2Proof.Machine.execReturnDue p s
  | .slewStepComplete p => Sys2Proof.Machine.execSlewStepComplete p s
  | .cutJump p => Sys2Proof.Machine.execCutJump p s
  | .cutInEnd p => Sys2Proof.Machine.execCutInEnd p s
  | .alarmRaiseDelayExpiry e => Sys2Proof.Machine.execAlarmRaiseDelayExpiry e s
  | .alarmClearDelayExpiry e => Sys2Proof.Machine.execAlarmClearDelayExpiry e s
  | .houseRefEdge => Sys2Proof.Machine.execHouseRefEdge s
  | .houseRefLossTimeout => Sys2Proof.Machine.execHouseRefLossTimeout s
  | .powerOnReset uaddr baud => Sys2Proof.Machine.execPowerOnReset uaddr baud s
  | .unitRestart => Sys2Proof.Machine.execUnitRestart s
  | .byteReceived b => Sys2Proof.Machine.execByteReceived b s
  | .receiverGapTimeout => Sys2Proof.Machine.execReceiverGapTimeout s
  | .replySent => Sys2Proof.Machine.execReplySent s
  | .powerOnResetStart => Sys2Proof.Machine.execPowerOnResetStart s

end Sys2Proof.Machine
end

