-- ==== Sys2Proof/Machine/Due.lean ====
section
/-! DEFINITION. The events that the part takes of itself, without a command from outside: those whose instant has come
in a state, each under every order its rule leaves open, and the choice among several of one instant (log 7). -/
namespace Sys2Proof.Machine

/-- An event, where its instant has come. -/
def dueIf (b : Bool) (l : List Instr) : List Instr := if b then l else []

/-- The events of the clock: the output sample after 512 master ticks, and the block close after 4,800 samples. -/
def clockDue (s : State) : List Instr :=
  dueIf (decide (Config.ticksPerSample ≤ s.tick)) [.outputSample] ++
    dueIf (decide (Config.blockSamples ≤ s.sampleInBlock)) [.blockClose (Config.closeOrder s.freeCount)]

/-- The events of the whole unit: a unit restart asked for (R158), the loss of the reference (R39), and the gap of the
receiver. The receiver's gap is certain at 5 byte times: a byte that began within 4 of the last has ended by then
(R147). -/
def unitDue (s : State) : List Instr :=
  dueIf (s.restart == .due) [.unitRestart] ++ dueIf (refLossIsDue s) [.houseRefLossTimeout] ++
    dueIf (gapReaches 5 s) [.receiverGapTimeout]

/-- The loss of a feed (R13). -/
def feedDue (s : State) (f : FeedId) : List Instr :=
  dueIf (lossIsDue s f) [.feedLossTimeout f true, .feedLossTimeout f false]

/-- The expiries of an alarm entry's timer (R135). -/
def entryDue (s : State) (e : EntryId) : List Instr :=
  dueIf (raiseIsDue s e) [.alarmRaiseDelayExpiry e] ++ dueIf (clearIsDue s e) [.alarmClearDelayExpiry e]

/-- The events of one program: the ends of its fades, its SWITCH, its return, its silence and its delay operation. -/
def progDue (s : State) (p : ProgId) : List Instr :=
  dueIf (startFadeIsDue s p) [.startFadeEnd p] ++ dueIf (stopFadeIsDue s p) [.stopFadeEnd p] ++
    dueIf (switchIsDue s p) [.swapSwitch p] ++ dueIf (swapEndIsDue s p) [.swapEnd p] ++
    dueIf (silenceIsDue s p) [.silenceTimeout p] ++ dueIf (returnIsDue s p) [.returnDue p] ++
    dueIf (slewIsDue s p) [.slewStepComplete p] ++ dueIf (cutJumpIsDue s p) [.cutJump p] ++
    dueIf (cutInIsDue s p) [.cutInEnd p]

/-- Every event whose instant has come. -/
def dueEvents (s : State) : List Instr :=
  clockDue s ++ unitDue s ++ allFeeds.flatMap (feedDue s) ++ allEntries.flatMap (entryDue s) ++
    allProgs.flatMap (progDue s)

/-- The event taken next, with the state it is taken in: the one that the free choice of log 7 picks among those whose
instant has come, which the model's counter then counts. None where no instant has come. -/
def pickDue (s : State) : Option (Instr × State) :=
  match dueEvents s with
  | [] => none
  | c :: l =>
    some ((c :: l).getD (Config.choice s.freeCount % (c :: l).length) c, { s with freeCount := s.freeCount + 1 })

end Sys2Proof.Machine
end

