-- ==== Sys2Proof/Machine/Step.lean ====
section
/-! DEFINITION. One step of the part: the command at the front of the queue, or, with none waiting, the part's own work
(log 2). -/
namespace Sys2Proof.Machine

/-- With no command waiting, the part takes one event whose instant has come; where none has, one master tick passes.
Nothing happens during a power-on reset (R157; log 2). -/
def idle (s : State) : Host.Outcome State Fault Refusal :=
  if s.inReset then .next s
  else match pickDue s with
    | some r => exec r.1 r.2
    | none => .next (passTicks 1 s)

/-- One step: the command at the front of the queue is taken with the rest of the queue left waiting. -/
def step (s : State) : Host.Outcome State Fault Refusal :=
  match s.pending with
  | c :: rest => exec c { s with pending := rest }
  | [] => idle s

/-- The state with the command that a word spells put at the front of its queue; no word spells one. -/
def State.withFetchWord (s : State) (nbits w : Nat) : State :=
  match decodeTableWord nbits w with
  | some c => { s with pending := c :: s.pending }
  | none => s

end Sys2Proof.Machine
end

