-- ==== Sys2Proof/Safety.lean ====
section
/-! DEFINITION. What counts as a sound state of the part: the laws the manual calls laws of the device, each as a
predicate of one state, and the terms in which statements about a message are made. -/
namespace Sys2Proof.Machine

/-! ## Laws of the device -/

/-- The Notice Queue never holds more than 32 notices (R153). -/
def QueueLaw (s : State) : Prop := s.notices.length ≤ Config.queueLimit

/-- ATTN is asserted exactly when the list or the missed set is not empty (R153), and released during a power-on reset
(R157). -/
def AttnLaw (s : State) : Prop := s.attn = true ↔ s.inReset = false ∧ (s.notices ≠ [] ∨ s.missed ≠ 0)

/-- A lamp of a severity is lit exactly when some entry of that severity is latched and not acknowledged (R142), and
dark during a power-on reset (R157). -/
def LampLaw (s : State) (sev : Severity) (lamp : Bool) : Prop :=
  lamp = true ↔
    s.inReset = false ∧
      ∃ e, (s.entry e).config.severity = sev ∧ (s.entry e).latched = true ∧ (s.entry e).acknowledged = false

/-- The three pins follow the state (R142, R153, R157). -/
def PinLaw (s : State) : Prop := AttnLaw s ∧ LampLaw s .major s.lampMajor ∧ LampLaw s .minor s.lampMinor

/-- Every setting lies in its range of R99. -/
def LoudSettings.InRange (l : LoudSettings) : Prop :=
  (-400 ≤ l.target ∧ l.target ≤ -100) ∧ (0 ≤ l.cutMax ∧ l.cutMax ≤ 300) ∧ (0 ≤ l.boostMax ∧ l.boostMax ≤ 200) ∧
    (1 ≤ l.rise ∧ l.rise ≤ 50) ∧ (1 ≤ l.fall ∧ l.fall ≤ 100) ∧ l.holdOff ≤ 100 ∧ (10 ≤ l.window ∧ l.window ≤ 300) ∧
    (-100 ≤ l.ceiling ∧ l.ceiling ≤ 0) ∧ (-300 ≤ l.overThreshold ∧ l.overThreshold ≤ 120) ∧
    (-900 ≤ l.silenceThreshold ∧ l.silenceThreshold ≤ -300) ∧ l.silenceTime ≤ 600 ∧ l.link ≤ 4

/-- G lies between −cut_max and +boost_max of the active settings, and is 0 outside mode CORRECT (R100); both copies of
the settings lie in their ranges (R99). -/
def GainLaw (s : State) : Prop :=
  ∀ p, (s.prog p).loud.pending.InRange ∧ (s.prog p).loud.active.InRange ∧
    -(s.prog p).loud.active.cutMax ≤ (s.prog p).loud.ownGain ∧
    (s.prog p).loud.ownGain ≤ (s.prog p).loud.active.boostMax ∧
    ((s.prog p).loud.active.mode ≠ .correct → (s.prog p).loud.ownGain = 0)

/-- Every RUNNING member of a link group applies the least G among the members (R104). -/
def LinkLaw (s : State) : Prop :=
  ∀ p, isMember (s.prog p) (s.prog p).loud.active.link = true →
    (∀ q, isMember (s.prog q) (s.prog p).loud.active.link = true →
      (s.prog p).loud.appliedGain ≤ (s.prog q).loud.ownGain) ∧
    ∃ q, isMember (s.prog q) (s.prog p).loud.active.link = true ∧
      (s.prog p).loud.appliedGain = (s.prog q).loud.ownGain

/-- SILENCE of a program is true exactly while it runs or stops with a silence time and its silence timer stands at 0
(R93 to R95). -/
def SilenceLaw (s : State) : Prop :=
  ∀ p, s.progCond p .silence = true ↔
    (s.prog p).active = true ∧ (s.prog p).loud.active.silenceTime ≠ 0 ∧ (s.prog p).loud.silenceTimer = 0

/-- Each page is on the free list or on the chain of one program, and on no two of them (R113); a program holds c × P
pages, and an UNDEFINED one has no slot, no reserve and no page (R114). -/
def PoolLaw (s : State) : Prop :=
  (s.freePages ++ allProgs.flatMap fun p => (s.prog p).delay.chain).Perm (List.range Config.pageCount) ∧
    ∀ p, (s.prog p).delay.chain.length = (s.prog p).slots * (s.prog p).delay.reserve ∧
      ((s.prog p).state = .undefined →
        (s.prog p).slots = 0 ∧ (s.prog p).delay.reserve = 0 ∧ (s.prog p).delay.chain = [])

/-- The stack of a program that runs or stops holds 1 to 4 distinct ranks, each of a defined set, and any other stack is
empty (R64); a defined set has exactly c entries (R47). -/
def StackLaw (s : State) : Prop :=
  ∀ p, (if (s.prog p).active then
      (s.prog p).stack ≠ [] ∧ (s.prog p).stack.Nodup ∧ ∀ r ∈ (s.prog p).stack, ((s.prog p).setAt r).isSome = true
    else (s.prog p).stack = []) ∧
    ∀ r l, (s.prog p).setAt r = some l → l.length = (s.prog p).slots

/-- A program that runs or stops has a reserve (R50), its Dtgt is the wanted delay clamped to the ring bound (R118), its
latency conditions say on which side of the bounds the wanted delay lies (R119), its Dcur is within the ring bound
(R125), its write position and flush counter lie within the ring (R116), and with no operation in flight a RUNNING
program reads at Dtgt (R126). Of any other program both latency conditions are false (R119). -/
def DelayLaw (s : State) : Prop :=
  ∀ p, ((s.prog p).active = true →
    1 ≤ (s.prog p).delay.reserve ∧ (s.prog p).delay.dtgt = delayTargetOf s (s.prog p) ∧
      (s.progCond p .latencyUnder = true ↔ wantedDelay s (s.prog p) < 0) ∧
      (s.progCond p .latencyOver = true ↔ ringBound s (s.prog p) < wantedDelay s (s.prog p)) ∧
      ((s.prog p).delay.dcur : Int) ≤ ringBound s (s.prog p) ∧
      (s.prog p).delay.writePos < (s.prog p).delay.ringSize ∧
      (s.prog p).delay.flushCounter ≤ (s.prog p).delay.ringSize ∧
      ((s.prog p).state = .running → (s.prog p).delay.op = .none → (s.prog p).delay.dcur = (s.prog p).delay.dtgt)) ∧
    ((s.prog p).active = false → s.progCond p .latencyUnder = false ∧ s.progCond p .latencyOver = false)

/-- The Delay Store's memory keeps its canonical form. -/
def StoreLaw (s : State) : Prop := s.store.wf = true

/-- Of every feed: FEED_ERRORS says that a channel is muted (R10), SRC_UNLOCKED that the converter is in TRACK (R37); a
disabled port has its converter in IDLE and all five conditions false (R5, R21), an enabled one has left IDLE (R4); the
FIFO holds at most 32 frames (R23, R35), fewer than 16 in a refill wait (R33), the phase fraction is below 2^20 (R32),
and the ratio estimate of a converter in TRACK or LOCKED lies within the steps of the class windows (R28, R29). -/
def FeedLaw (s : State) : Prop :=
  ∀ f, (s.feedCond f .feedErrors = true ↔ (s.feed f).port.chA.muted = true ∨ (s.feed f).port.chB.muted = true) ∧
    (s.feedCond f .srcUnlocked = true ↔ (s.feed f).conv.state = .track) ∧
    ((s.feed f).port.enable = false → (s.feed f).conv.state = .idle ∧ ∀ k, s.feedCond f k = false) ∧
    ((s.feed f).port.enable = true → (s.feed f).conv.state ≠ .idle) ∧
    (s.feed f).conv.fifo.length ≤ 32 ∧ ((s.feed f).conv.refillWait = true → (s.feed f).conv.fifo.length < 16) ∧
    (s.feed f).conv.phase < 2 ^ 20 ∧
    ((s.feed f).conv.state = .track ∨ (s.feed f).conv.state = .locked →
      692137 ≤ (s.feed f).conv.ratio ∧ (s.feed f).conv.ratio ≤ 2118226)

/-- A feed is healthy exactly while its port is enabled and none of its FAILOVER entries is ACTIVE or FALLING (R62). -/
def HealthLaw (s : State) : Prop :=
  ∀ f, (s.feed f).healthy = true ↔
    (s.feed f).port.enable = true ∧
      ∀ k, (s.entry (feedEntry f k)).config.action = .failover →
        (s.entry (feedEntry f k)).state ≠ .active ∧ (s.entry (feedEntry f k)).state ≠ .falling

/-- NO_SOURCE of a program is true exactly while it runs or stops, its current set is not eligible and no set of it is
(R76); ON_BACKUP exactly while it runs or stops on a rank that is not 0 (R77). -/
def SourceLaw (s : State) : Prop :=
  ∀ p, (s.progCond p .noSource = true ↔
      (s.prog p).active = true ∧ currentEligible s (s.prog p) = false ∧ ∀ r, eligible s (s.prog p) r = false) ∧
    (s.progCond p .onBackup = true ↔
      (s.prog p).active = true ∧ ∃ r, (s.prog p).currentRank = some r ∧ r ≠ 0)

/-- Of every alarm entry: it stands in RISING or ACTIVE exactly while its condition is true (R134), its timer is 0 in
CLEAR and ACTIVE and at most 255, its delays and its raise count are at most 255 (R131), severity OFF is not latched
(R139), and action FAILOVER stands only where it is legal (R140). -/
def EntryLaw (s : State) : Prop :=
  ∀ e, (s.cond e = true ↔ (s.entry e).state = .rising ∨ (s.entry e).state = .active) ∧
    ((s.entry e).state = .clear ∨ (s.entry e).state = .active → (s.entry e).timer = 0) ∧
    (s.entry e).timer ≤ 255 ∧ (s.entry e).config.raiseDelay ≤ 255 ∧ (s.entry e).config.clearDelay ≤ 255 ∧
    (s.entry e).raiseCount ≤ 255 ∧ ((s.entry e).config.severity = .off → (s.entry e).latched = false) ∧
    ((s.entry e).config.action = .failover → failoverLegal e = true)

/-- A sound state: every law above holds. A safe run is one whose every state is sound. -/
structure Sound (s : State) : Prop where
  queue : QueueLaw s
  pins : PinLaw s
  gain : GainLaw s
  link : LinkLaw s
  silence : SilenceLaw s
  pool : PoolLaw s
  stack : StackLaw s
  delay : DelayLaw s
  store : StoreLaw s
  feed : FeedLaw s
  health : HealthLaw s
  source : SourceLaw s
  entry : EntryLaw s

/-! ## Messages -/

/-- An addressed message is taken now and answered: no reset is in progress, no reply is being sent, and the unit has an
address of its own (R146, R149, R150, R157). -/
def Answers (s : State) (m : Msg) : Prop :=
  s.inReset = false ∧ s.rx.state ≠ .busy ∧ m.broadcast = false ∧ s.unitAddr ≠ 31

/-- An addressed command in its carried-out form is taken now (R150, R152). -/
def Commands (s : State) (m : Msg) : Prop := Answers s m ∧ m.check = false

/-- The state with a reply being sent: the receiver BUSY, and the pins judged (R149, R150). -/
def replying (k : Kind) (body : List Byte) (t : State) : State :=
  judgePins { t with reply := some (replyFrame t.unitAddr (BitVec.ofNat 8 k.code) body), rx := { t.rx with state := .busy } }

/-- Two states hold the same feeds but for the feed named. -/
def OtherFeedsKept (f : FeedId) (s t : State) : Prop := ∀ f', f' ≠ f → t.feed f' = s.feed f'

/-- Two states hold the same programs but for the program named. -/
def OtherProgsKept (p : ProgId) (s t : State) : Prop := ∀ q, q ≠ p → t.prog q = s.prog q

/-- Two states hold the same programs but for what the work of a feed or of an alarm entry can reach in them: the swap,
the marks, the return timer and the delay operation. -/
def RunsKept (s t : State) : Prop :=
  ∀ p, (t.prog p).state = (s.prog p).state ∧ (t.prog p).slots = (s.prog p).slots ∧
    (t.prog p).weights = (s.prog p).weights ∧ (t.prog p).sets = (s.prog p).sets ∧ (t.prog p).stack = (s.prog p).stack ∧
    (t.prog p).outLevel = (s.prog p).outLevel ∧ (t.prog p).loud = (s.prog p).loud ∧
    (t.prog p).delay.reserve = (s.prog p).delay.reserve ∧ (t.prog p).delay.chain = (s.prog p).delay.chain

/-- Two states hold the same alarm entries but for the entry named. -/
def OtherEntriesKept (e : EntryId) (s t : State) : Prop := ∀ e', e' ≠ e → t.entry e' = s.entry e'

/-- A notice has been produced between two states (R153): it stands behind those that waited, or, where the queue was
full, its source is in the missed set. The place among other notices of the same event is left open (log 22). -/
def Reported (k : NoticeKind) (src : Source) (detail : List Byte) (s t : State) : Prop :=
  t.notices.take s.notices.length = s.notices ∧
      ⟨k, src, padTo 6 0 detail, s.blockCounter⟩ ∈ t.notices.drop s.notices.length ∨
    32 ≤ t.notices.length ∧ t.missed.getLsbD src.code = true

/-! ## Failover and delay of one program -/

/-- Some slot of a set is taken from the feed. -/
def Names (l : List SlotSource) (f : FeedId) : Prop := ∃ x ∈ l, x.feed = f

/-- The swap of a RUNNING program that a feed trigger (R70) or the release of NO_SOURCE (R76) has reached: a new
FADE_OUT from the present level with cause FAILOVER and the current rank as origin, or, in FADE_OUT, the swap in
flight. -/
def failoverSwap (g : Program) : Swap :=
  if g.swap.phase = .fadeOut then g.swap
  else { phase := .fadeOut, level := g.swap.level, cause := some .failover, origin := g.currentRank }

/-- The health of a feed has changed, as the programs see it (R63, R73, R76): a program that runs or stops, with a
defined set that names the feed, has NO_SOURCE by its statement, and the return timer at 0 where it is RUNNING and its
return set is not eligible. -/
def EligibilityJudged (f : FeedId) (s t : State) : Prop :=
  ∀ p, (s.prog p).active = true → (∃ r l, (s.prog p).setAt r = some l ∧ Names l f) →
    (t.progCond p .noSource = true ↔
      currentEligible t (t.prog p) = false ∧ ∀ r, eligible t (t.prog p) r = false) ∧
    (t.prog p).returnTimer =
      if (s.prog p).state = .running ∧ returnEligible t (t.prog p) = false then 0 else (s.prog p).returnTimer

/-- A feed has been judged unhealthy (R62, R63, R70). Where it was healthy, every RUNNING program whose current set
names it begins a failover swap, but where NO_SOURCE was already true, and no other swap changes; where it was unhealthy
before, none does. -/
def HealthLost (f : FeedId) (s t : State) : Prop :=
  (t.feed f).healthy = false ∧
    ((s.feed f).healthy = false → ∀ p, (t.prog p).swap = (s.prog p).swap) ∧
    ((s.feed f).healthy = true → EligibilityJudged f s t ∧ ∀ p,
      ((s.prog p).state = .running → Names (s.prog p).currentSet f → s.progCond p .noSource = false →
        (t.prog p).swap = failoverSwap (s.prog p)) ∧
      (SourceLaw s →
        (s.prog p).state ≠ .running ∨ ¬Names (s.prog p).currentSet f ∨ s.progCond p .noSource = true →
        (t.prog p).swap = (s.prog p).swap))

/-- An unhealthy feed has been judged healthy (R62, R63, R76): a RUNNING program whose NO_SOURCE that ends, its current
set still not eligible, begins a failover swap, and no other swap changes. -/
def HealthGained (f : FeedId) (s t : State) : Prop :=
  (t.feed f).healthy = true ∧ EligibilityJudged f s t ∧ ∀ p,
    (t.prog p).swap =
      if s.progCond p .noSource = true ∧ t.progCond p .noSource = false ∧ (s.prog p).state = .running ∧
          currentEligible t (t.prog p) = false then
        failoverSwap (s.prog p)
      else (s.prog p).swap

/-- An alarm entry holds its feed unhealthy (R62). -/
def HoldsUnhealthy (x : Entry) : Prop := x.config.action = .failover ∧ (x.state = .active ∨ x.state = .falling)

/-- The delay record and the output fade's direction once Dtgt is recomputed under a ring bound (R122, R124, R125):
Dcur is clamped to the bound; with no clamp and the same Dtgt nothing else changes, and a program that is not RUNNING,
or is in a CUT, goes on as it was; a SLEW with no clamp goes on within the slew limit; otherwise an operation is begun
by the distance from Dcur to Dtgt: none at 0, a SLEW up to the slew limit, and a CUT above it. -/
def DelayFollows (bound : Int) (g h : Program) : Prop :=
  let clamped := bound.toNat < g.delay.dcur
  let d := { g.delay with dtgt := h.delay.dtgt, dcur := min g.delay.dcur bound.toNat }
  let gap := ((d.dtgt : Int) - d.dcur).natAbs
  let goesOn :=
    g.state ≠ .running ∨ g.delay.op = .cutOut ∨ g.delay.op = .cutIn ∨ ¬clamped ∧ d.dtgt = g.delay.dtgt ∨
      ¬clamped ∧ g.delay.op = .slew ∧ gap ≤ d.slewLimit
  (goesOn → h.delay = d ∧ h.outDir = g.outDir) ∧
  (¬goesOn → gap = 0 → h.delay = { d with op := .none, progress := 0 } ∧ h.outDir = g.outDir) ∧
  (¬goesOn → 1 ≤ gap → gap ≤ d.slewLimit → h.outDir = g.outDir ∧ h.delay =
    { d with
      op := .slew, progress := 0, dir := if d.dcur < d.dtgt then .up else .down, stepInterval := d.interval }) ∧
  (¬goesOn → d.slewLimit < gap → h.delay = { d with op := .cutOut, progress := 0 } ∧ h.outDir = .none)

/-- The SWITCH has put a program on a rank for a cause (R68): the current rank, its delay, an empty window where
reset-on-swap is on, the return timer at 0, ON_BACKUP by the rank, NO_SOURCE false, and SOURCE_CHANGED from the origin
rank. -/
def SetChanged (p : ProgId) (r : Rank) (cause : SwapCause) (s t : State) : Prop :=
  (t.prog p).currentRank = some r ∧ (t.prog p).swap.cause = some cause ∧ (t.prog p).returnTimer = 0 ∧
    (t.prog p).delay.dtgt = delayTargetOf t (t.prog p) ∧
    DelayFollows (ringBound t (t.prog p)) (s.prog p) (t.prog p) ∧
    (t.prog p).loud =
      { (s.prog p).loud with window := if (s.prog p).resetOnSwap then [] else (s.prog p).loud.window } ∧
    t.progCond p .noSource = false ∧ (t.progCond p .onBackup = true ↔ r ≠ 0) ∧
    Reported .sourceChanged (.program p)
      (rankByte (s.prog p).swap.origin ++ [BitVec.ofNat 8 r.val, BitVec.ofNat 8 (causeCode (some cause))]) s t

/-! ## Block closes -/

/-- A close whose loudness controllers all do their work before anything that could begin a swap at it (R88; log 23). -/
def LoudnessFirst (o : CloseOrder) : Prop := ∀ w ∈ o.first, isMeasure w = true

/-- An alarm entry has nothing to hand over at a block close: where its action is FAILOVER, it belongs to a feed
condition that no close judges, and its timer does not run (R135, R140). -/
def HandsNothing (s : State) (e : EntryId) : Prop :=
  (s.entry e).config.action = .failover →
    e.val < 80 ∧ e.val % 5 ≠ 4 ∧ ((s.entry e).state = .clear ∨ (s.entry e).state = .active)

/-- No alarm entry has anything to hand over at a block close. -/
def NoHandover (s : State) : Prop := ∀ e, HandsNothing s e

/-- The program's block is measured at a block close: it runs or stops, and the block is not marked incomplete (R85). -/
def Measured (g : Program) : Prop := g.active = true ∧ g.loud.incomplete = false

/-- The end of a program's run is reported: PROGRAM_STOPPED with the last current rank is the newest notice, or, where
the queue was full, the program is in the missed set (R54, R153). That it is the newest is log 37. -/
def StopReported (p : ProgId) (rank : Option Rank) (s t : State) : Prop :=
  t.notices.getLast? = some ⟨.programStopped, .program p, padTo 6 0 (rankByte rank), s.blockCounter⟩ ∨
    32 ≤ t.notices.length ∧ t.missed.getLsbD (16 + p.val) = true

end Sys2Proof.Machine
end

