-- ==== Sys2Proof/WellFormed.lean ====
section
/-! DEFINITION. Which commands can reach a part: a frame's body is at most 160 bytes (section 10.1), and the refused
frame of a bad kind carries a kind byte that R151's first test refuses. The meanings are total: an ill-formed command
still has an outcome. -/
namespace Sys2Proof

/-- The message that a command carries, if it is a frame of the control line. -/
def Instr.message : Instr → Option Msg
  | .ident m => some m
  | .restart m => some m
  | .linkStats m => some m
  | .notices m => some m
  | .feedConfig m => some m
  | .feedQuery m => some m
  | .progDefine m => some m
  | .progClear m => some m
  | .setDefine m => some m
  | .progStart m => some m
  | .progStop m => some m
  | .progRestart m => some m
  | .progQuery m => some m
  | .sourceSelect m => some m
  | .failoverConfig m => some m
  | .loudConfig m => some m
  | .loudQuery m => some m
  | .loudRestart m => some m
  | .delayReserve m => some m
  | .delayTarget m => some m
  | .delayQuery m => some m
  | .poolQuery m => some m
  | .alarmConfig m => some m
  | .alarmQuery m => some m
  | .alarmAck m => some m
  | .alarmScan m => some m
  | .badKindFrame _ m => some m
  | .frameEdge _ _ => none
  | .subframeJudged _ _ => none
  | .feedLossTimeout _ _ => none
  | .outputSample => none
  | .startFadeEnd _ => none
  | .stopFadeEnd _ => none
  | .swapSwitch _ => none
  | .swapEnd _ => none
  | .blockClose _ => none
  | .silenceTimeout _ => none
  | .returnDue _ => none
  | .slewStepComplete _ => none
  | .cutJump _ => none
  | .cutInEnd _ => none
  | .alarmRaiseDelayExpiry _ => none
  | .alarmClearDelayExpiry _ => none
  | .houseRefEdge => none
  | .houseRefLossTimeout => none
  | .powerOnReset _ _ => none
  | .unitRestart => none
  | .byteReceived _ => none
  | .receiverGapTimeout => none
  | .replySent => none
  | .powerOnResetStart => none

/-- The message kind a command is a frame of, if it is one of a known kind. -/
def Instr.kind : Instr → Option Machine.Kind
  | .ident _ => some .ident
  | .restart _ => some .restart
  | .linkStats _ => some .linkStats
  | .notices _ => some .notices
  | .feedConfig _ => some .feedConfig
  | .feedQuery _ => some .feedQuery
  | .progDefine _ => some .progDefine
  | .progClear _ => some .progClear
  | .setDefine _ => some .setDefine
  | .progStart _ => some .progStart
  | .progStop _ => some .progStop
  | .progRestart _ => some .progRestart
  | .progQuery _ => some .progQuery
  | .sourceSelect _ => some .sourceSelect
  | .failoverConfig _ => some .failoverConfig
  | .loudConfig _ => some .loudConfig
  | .loudQuery _ => some .loudQuery
  | .loudRestart _ => some .loudRestart
  | .delayReserve _ => some .delayReserve
  | .delayTarget _ => some .delayTarget
  | .delayQuery _ => some .delayQuery
  | .poolQuery _ => some .poolQuery
  | .alarmConfig _ => some .alarmConfig
  | .alarmQuery _ => some .alarmQuery
  | .alarmAck _ => some .alarmAck
  | .alarmScan _ => some .alarmScan
  | .badKindFrame _ _ => none
  | .frameEdge _ _ => none
  | .subframeJudged _ _ => none
  | .feedLossTimeout _ _ => none
  | .outputSample => none
  | .startFadeEnd _ => none
  | .stopFadeEnd _ => none
  | .swapSwitch _ => none
  | .swapEnd _ => none
  | .blockClose _ => none
  | .silenceTimeout _ => none
  | .returnDue _ => none
  | .slewStepComplete _ => none
  | .cutJump _ => none
  | .cutInEnd _ => none
  | .alarmRaiseDelayExpiry _ => none
  | .alarmClearDelayExpiry _ => none
  | .houseRefEdge => none
  | .houseRefLossTimeout => none
  | .powerOnReset _ _ => none
  | .unitRestart => none
  | .byteReceived _ => none
  | .receiverGapTimeout => none
  | .replySent => none
  | .powerOnResetStart => none

/-- A body fits a frame: 0 to 160 bytes (section 10.1). -/
def Msg.wf (m : Msg) : Bool := m.body.length ≤ 160

/-- The kind byte of the refused frame is one that R151's first test refuses; every other command passes. -/
def Instr.kindWf : Instr → Bool
  | .badKindFrame kind _ => (Machine.readKind kind).isNone
  | _ => true

/-- A command that can reach a part. -/
def Instr.wf (i : Instr) : Bool :=
  i.kindWf && match i.message with
    | none => true
    | some m => m.wf

end Sys2Proof
end

