-- ==== Sys2Proof/Certificates/Slice0/Obligations.lean ====
section
/-! DEFINITION. The statements about the AP-24 that are to be proved: the queue and the resets, the line and its
messages, feeds, programs, failover, loudness, delay, alarms, and the laws of the device that every step keeps. -/
section

open Sys2Proof Sys2Proof.Machine

/-! ## The queue, the resets and the end of every command -/

/-- A step takes the command at the front of the queue with the rest of the queue left waiting. With none waiting, a
part in a power-on reset stays as it is, one for which no event's instant has come lets one master tick pass, and one
takes else an event of those whose instant has come. The queue is the model's (log 2), and so is the counter of choices,
which such an event adds to (log 7). -/
def Obligations.StepTakesFrontCommand : Prop :=
  (∀ (s : State) (c : Instr) (rest : List Instr), s.pending = c :: rest → step s = exec c { s with pending := rest }) ∧
  ∀ s : State, s.pending = [] →
    (s.inReset = true → step s = .next s) ∧
    (s.inReset = false → dueEvents s = [] → step s = .next (passTicks 1 s)) ∧
    (s.inReset = false → dueEvents s ≠ [] →
      ∃ c ∈ dueEvents s, step s = exec c { s with freeCount := s.freeCount + 1 })

/-- What commands leave alone. None touches the queue of waiting commands or the model's counter of free choices. But
for the end of a power-on reset: none changes the straps; the reset cause changes at a unit restart only; the block
counter at a block close or a unit restart; the positions of the sample and the block at an output sample or a block
close; the monitor at its own events, an output sample and a unit restart; the free list by a frame only; the ports
at an output sample or a reset; and the receiver, the reply and a restart asked for by the line, an output sample
and the resets (R43, R113, R146, R155, R157, R158). The model's own fields among them, the queue, the counter and
the positions, are of log 2, 7 and 11. -/
def Obligations.CommandsKeepFrame : Prop :=
  ∀ (c : Instr) (s t : State), exec c s = .next t → t.pending = s.pending ∧ t.freeCount = s.freeCount ∧
    ((∀ u b, c ≠ .powerOnReset u b) →
      t.unitAddr = s.unitAddr ∧ t.baud = s.baud ∧
      (c ≠ .powerOnResetStart → t.inReset = s.inReset) ∧
      (c ≠ .unitRestart → t.resetCause = s.resetCause) ∧
      (c ≠ .unitRestart → (∀ o, c ≠ .blockClose o) → t.blockCounter = s.blockCounter) ∧
      (c ≠ .outputSample → t.tick = s.tick ∧ ((∀ o, c ≠ .blockClose o) → t.sampleInBlock = s.sampleInBlock)) ∧
      (c ≠ .houseRefEdge → c ≠ .houseRefLossTimeout → c ≠ .outputSample → c ≠ .unitRestart → t.monitor = s.monitor) ∧
      (c.message = none → (∀ b, c ≠ .byteReceived b) → t.freePages = s.freePages) ∧
      (c ≠ .outputSample → c ≠ .unitRestart → c ≠ .powerOnResetStart → t.ports = s.ports) ∧
      (c.message = none → (∀ b, c ≠ .byteReceived b) → c ≠ .receiverGapTimeout → c ≠ .replySent → c ≠ .outputSample →
        c ≠ .unitRestart → c ≠ .powerOnResetStart → t.rx = s.rx ∧ t.reply = s.reply ∧ t.restart = s.restart))

/-- A power-on reset: its start sends no reply, releases ATTN, leaves the lamps dark and zero in every output slot, with
every block as it stood; while it lasts, every command but its start and its end leaves the part as it is (R157; log
19). -/
def Obligations.ResetHoldsPart : Prop :=
  (∀ s : State, ∃ t, exec .powerOnResetStart s = .next t ∧ t.inReset = true ∧ t.reply = none ∧ t.rx.state = .hunt ∧
    t.attn = false ∧ t.lampMajor = false ∧ t.lampMinor = false ∧
    (∀ (p : ProgId) (k : Fin 8), (t.ports[p.val])[k.val] = 0) ∧
    t.feeds = s.feeds ∧ t.progs = s.progs ∧ t.entries = s.entries ∧ t.conds = s.conds ∧ t.notices = s.notices ∧
    t.missed = s.missed ∧ t.store = s.store ∧ t.freePages = s.freePages ∧ t.monitor = s.monitor) ∧
  ∀ (c : Instr) (s : State), s.inReset = true → c ≠ .powerOnResetStart → (∀ u b, c ≠ .powerOnReset u b) →
    exec c s = .next s

/-- The end of a power-on reset reads the straps and puts the fields named here at their power-on values (R157, with
R19, R42, R61, R80, R98, R112, R130, R132, R133, R146). The strap values are operands (log 1). -/
def Obligations.PowerOnResetValues : Prop :=
  ∀ (s : State) (u : BitVec 5) (b : BitVec 2), ∃ t, exec (.powerOnReset u b) s = .next t ∧
    t.unitAddr = u ∧ t.baud = b ∧ t.resetCause = .power ∧ t.inReset = false ∧
    t.notices = [] ∧ t.missed = 0 ∧ t.blockCounter = 0 ∧ t.attn = false ∧ t.lampMajor = false ∧ t.lampMinor = false ∧
    t.rx.state = .hunt ∧ t.rx.checkFail = 0 ∧ t.rx.gap = 0 ∧ t.rx.overrun = 0 ∧
    t.freePages = List.range 4096 ∧ t.monitor.lost = false ∧ t.monitor.timer = some 0 ∧
    (∀ f, (t.feed f).port.enable = false ∧ (t.feed f).port.expected = none ∧ (t.feed f).port.parityCheck = true ∧
      (t.feed f).port.honourValidity = true ∧ (t.feed f).conv.state = .idle ∧ (t.feed f).conv.slipCount = 0 ∧
      (t.feed f).healthy = false) ∧
    (∀ p, (t.prog p).state = .undefined ∧ (t.prog p).stack = [] ∧ (t.prog p).swap.level = 480 ∧
      (t.prog p).outLevel = 0 ∧ (t.prog p).autoReturn = true ∧ (t.prog p).returnHold = 300 ∧
      (t.prog p).resetOnSwap = false ∧ (t.prog p).loud.ownGain = 0 ∧ (t.prog p).loud.silenceTimer = 50 ∧
      (t.prog p).loud.limiterGain = 1 ∧ (t.prog p).delay.chain = [] ∧ (t.prog p).delay.ltgt = 0 ∧
      (t.prog p).delay.slewLimit = 480 ∧ (t.prog p).delay.interval = .n256) ∧
    (∀ e, t.entry e = { config := defaultConfig e } ∧ t.cond e = false)

/-- A unit restart: the queue holds RESTARTED alone with stamp 0, the line counters and the block counter are 0, the
straps, the pool and the positions of the sample and the block are kept, and every feed, program and alarm entry
takes the restart values named here (R158, with R19, R42, R61, R80, R98, R112, R130, R133). The master clock kept is
log 27. -/
def Obligations.UnitRestartValues : Prop :=
  ∀ s : State, s.inReset = false → ∃ t, exec .unitRestart s = .next t ∧
    t.notices = [⟨.restarted, .unit, [0, 0, 0, 0, 0, 0], 0⟩] ∧ t.missed = 0 ∧ t.attn = true ∧ t.blockCounter = 0 ∧
    t.resetCause = .restart ∧ t.rx.state = .hunt ∧ t.rx.checkFail = 0 ∧ t.rx.gap = 0 ∧ t.rx.overrun = 0 ∧
    t.lampMajor = false ∧ t.lampMinor = false ∧ t.unitAddr = s.unitAddr ∧ t.baud = s.baud ∧
    t.freePages = s.freePages ∧ t.store = s.store ∧ t.tick = s.tick ∧ t.sampleInBlock = s.sampleInBlock ∧
    t.monitor = { lost := false, timer := some 0, clock := s.monitor.clock } ∧
    (∀ f, (t.feed f).port.enable = (s.feed f).port.enable ∧ (t.feed f).port.expected = (s.feed f).port.expected ∧
      (t.feed f).port.parityCheck = (s.feed f).port.parityCheck ∧
      (t.feed f).port.honourValidity = (s.feed f).port.honourValidity ∧
      (t.feed f).conv = { state := if (s.feed f).port.enable then .search else .idle } ∧
      (t.feed f).healthy = (s.feed f).port.enable) ∧
    (∀ p, (t.prog p).state = (if (s.prog p).active then .defined else (s.prog p).state) ∧ (t.prog p).stack = [] ∧
      (t.prog p).slots = (s.prog p).slots ∧ (t.prog p).weights = (s.prog p).weights ∧
      (t.prog p).sets = (s.prog p).sets ∧ (t.prog p).swap = {} ∧ (t.prog p).outLevel = 0 ∧
      (t.prog p).loud.pending = (s.prog p).loud.pending ∧ (t.prog p).loud.active = (s.prog p).loud.pending ∧
      (t.prog p).loud.silenceTimer = (s.prog p).loud.pending.silenceTime ∧ (t.prog p).loud.ownGain = 0 ∧
      (t.prog p).delay.reserve = (s.prog p).delay.reserve ∧ (t.prog p).delay.chain = (s.prog p).delay.chain ∧
      (t.prog p).delay.flushCounter = 0 ∧ (t.prog p).delay.dcur = 0 ∧ (t.prog p).delay.op = .none) ∧
    (∀ e, t.entry e = { config := (s.entry e).config } ∧ t.cond e = false)

/-! ## The control line -/

/-- A frame received byte by byte is the message it carries: from HUNT, the start byte, the address of the unit or 31,
the kind byte, the length, a body of up to 160 bytes and the check byte hand the message over exactly as the row of its
kind takes it, with the receiver's fields holding the frame (R147, R148, R150; section 10.1). That a row stands for
the acceptance of its frame is log 16. -/
def Obligations.FrameIsMessage : Prop :=
  ∀ (s : State) (k : Kind) (check : Bool) (u : BitVec 5) (body : List Byte),
    s.rx.state = .hunt → body.length ≤ 160 → (u = s.unitAddr ∨ u = 31) →
    (k.isQuery && check) = false →
    let head := [u.zeroExtend 8, kindByte k check, BitVec.ofNat 8 body.length] ++ body
    let m : Msg := { broadcast := u == 31, check := check, body := body }
    let rx : Receiver :=
      { s.rx with
        state := .check, address := u.zeroExtend 8, kind := kindByte k check, length := BitVec.ofNat 8 body.length
        body := body, left := 0, gapTimer := 0 }
    (0x5A#8 :: head ++ [checkByte head]).foldl (fun t b => takeByte b t) s =
      deliver k (evalKind k (isBroadcast m s)) m (s.withRx rx)

/-- The receiver outside a frame's acceptance: in HUNT a byte is discarded unless it is 0x5A, which starts a frame; a
length byte above 160 makes any frame unreadable and counts a check-fail; the frame of another unit, or a reply, is
skipped for its length and one byte more, whatever its bytes, and nothing is counted; while BUSY each byte counts an
overrun; a wrong check byte discards the frame and counts it; a gap of 4 byte times in a state from ADDRESS to CHECK or
in SKIP abandons the frame and counts it, a shorter one does nothing; and the last bit of a reply returns the receiver
to HUNT, making a restart that waits for it due (R147 to R149, R158; the gap in master ticks is log 28, the restart's
phase log 10). -/
def Obligations.ReceiverEvents : Prop :=
  ∀ (s : State) (b : Byte), s.inReset = false →
    (s.rx.state = .hunt → b ≠ 0x5A → exec (.byteReceived b) s = .next (judgePins s)) ∧
    (s.rx.state = .hunt → exec (.byteReceived 0x5A) s =
      .next (judgePins { s with rx := { s.rx with state := .address, gapTimer := 0 } })) ∧
    (s.rx.state = .length → 160 < b.toNat → exec (.byteReceived b) s =
      .next (judgePins
        { s with rx := { s.rx with state := .hunt, gapTimer := 0, checkFail := min (s.rx.checkFail + 1) 65535 } })) ∧
    (s.rx.state = .length → b.toNat ≤ 160 →
      (s.rx.address.getLsbD 7 = true ∨ s.rx.address.truncate 5 ≠ s.unitAddr ∧ s.rx.address.truncate 5 ≠ 31#5) →
      exec (.byteReceived b) s = .next (judgePins
        { s with rx := { s.rx with state := .skip, gapTimer := 0, length := b, left := b.toNat + 1 } })) ∧
    (s.rx.state = .skip → ∀ bytes : List Byte, bytes ≠ [] → bytes.length = s.rx.left →
      bytes.foldl (fun t x => takeByte x t) s =
        { s with rx := { s.rx with state := .hunt, gapTimer := 0, left := 0 } }) ∧
    (s.rx.state = .busy → exec (.byteReceived b) s =
      .next (judgePins { s with rx := { s.rx with overrun := min (s.rx.overrun + 1) 65535 } })) ∧
    (s.rx.state = .check → ([s.rx.address, s.rx.kind, s.rx.length] ++ s.rx.body ++ [b]).foldl (· + ·) 0 ≠ 0 →
      exec (.byteReceived b) s =
        .next (judgePins
          { s with rx := { s.rx with state := .hunt, gapTimer := 0, checkFail := min (s.rx.checkFail + 1) 65535 } })) ∧
    (s.rx.state ≠ .hunt → s.rx.state ≠ .busy → 40 * 24576000 ≤ s.rx.gapTimer * lineRate s.baud →
      exec .receiverGapTimeout s =
        .next (judgePins { s with rx := { s.rx with state := .hunt, gap := min (s.rx.gap + 1) 65535 } })) ∧
    (s.rx.state = .hunt ∨ s.rx.state = .busy ∨ s.rx.gapTimer * lineRate s.baud < 40 * 24576000 →
      exec .receiverGapTimeout s = .next (judgePins s)) ∧
    (s.rx.state = .busy → exec .replySent s =
      .next (judgePins
        { s with
          rx := { s.rx with state := .hunt }, reply := none
          restart := if s.restart = .afterReply then .due else s.restart }))

/-- Refusals, of an addressed message in its carried-out form unless said otherwise. A frame of a bad kind is answered
with BAD_KIND alone, the kind byte echoed with the reply mark; as a broadcast it has no effect. A body of a length
the kind does not have is answered with BAD_LENGTH alone, and an index that names no feed, program or entry with
BAD_TARGET alone; a message whose tests fail is answered with its status alone; and none of these changes anything
(R150, R151, R162). -/
def Obligations.RefusalsAnswered : Prop :=
  (∀ (s : State) (m : Msg) (kb : Byte), s.inReset = false → s.rx.state ≠ .busy → s.unitAddr ≠ 31 →
    (kb.getLsbD 7 = true ∨ (∀ k : Kind, k.code ≠ kb.toNat % 64) ∨
      ∃ k : Kind, k.code = kb.toNat % 64 ∧ k.isQuery = true ∧ kb.getLsbD 6 = true) →
    (m.broadcast = false → exec (.badKindFrame kb m) s =
      .next (judgePins
        { s with reply := some (replyFrame s.unitAddr kb [0x20]), rx := { s.rx with state := .busy } })) ∧
    (m.broadcast = true →
      exec (.badKindFrame kb m) s = .next (judgePins { s with rx := { s.rx with state := .hunt } }))) ∧
  ∀ (c : Instr) (k : Kind) (m : Msg) (s : State), c.kind = some k → c.message = some m → Commands s m →
    (k.lengthOk m.body.length = false → exec c s = .next (replying k [0x21] s)) ∧
    (∀ b, k.lengthOk m.body.length = true → m.body.head? = some b →
      (match k with
        | .ident | .restart | .linkStats | .notices | .poolQuery => False
        | .feedConfig | .feedQuery => 16 ≤ b.toNat
        | .alarmConfig | .alarmQuery | .alarmScan => 137 ≤ b.toNat
        | .alarmAck => 137 ≤ b.toNat ∧ b ≠ 0xFF
        | _ => 8 ≤ b.toNat) →
      exec c s = .next (replying k [0x22] s)) ∧
    (∀ st, judge k (evalKind k false) m s = .error st → exec c s = .next (replying k [BitVec.ofNat 8 st.code] s))

/-- Messages that are not taken: one that arrives while a reply is being sent is lost, each byte of its frame counting
an overrun (R149; the whole frame counted at its row is log 16), and a broadcast of a query kind is ignored (R150). -/
def Obligations.MessagesNotTaken : Prop :=
  ∀ (c : Instr) (m : Msg) (s : State), c.message = some m → c.kindWf = true → s.inReset = false →
    (s.rx.state = .busy → exec c s =
      .next (judgePins { s with rx := { s.rx with overrun := min (s.rx.overrun + (m.body.length + 5)) 65535 } })) ∧
    (s.rx.state ≠ .busy → m.broadcast = true →
      (c = .ident m ∨ c = .linkStats m ∨ c = .notices m ∨ c = .feedQuery m ∨ c = .progQuery m ∨ c = .loudQuery m ∨
        c = .delayQuery m ∨ c = .poolQuery m ∨ c = .alarmQuery m ∨ c = .alarmScan m) →
      exec c s = .next (judgePins { s with rx := { s.rx with state := .hunt } }))

/-- The check form of a message changes nothing but the reply and the receiver, whatever its kind; as a broadcast it has
no effect but that the receiver hunts again (R150, R152). The reply of a command kind has the status and the fields
that the command itself would give in that state, with the check-form mark echoed; a query kind has no check form and
is answered with BAD_KIND (R152). -/
def Obligations.CheckFormChangesNothing : Prop :=
  (∀ (c : Instr) (m : Msg) (s : State), c.message = some m → c.kindWf = true → m.check = true → s.inReset = false →
    s.rx.state ≠ .busy →
    (m.broadcast = false → s.unitAddr ≠ 31 → ∃ r,
      exec c s = .next (judgePins { s with reply := some r, rx := { s.rx with state := .busy } })) ∧
    (m.broadcast = true → exec c s = .next (judgePins { s with rx := { s.rx with state := .hunt } }))) ∧
  ∀ (c c' : Instr) (k : Kind) (m : Msg) (s : State), c.kind = some k → c'.kind = some k →
    c.message = some { m with check := true } → c'.message = some { m with check := false } → Answers s m →
    (k.isQuery = false → ∃ body t, exec c' s = .next t ∧
      t.reply = some (replyFrame s.unitAddr (BitVec.ofNat 8 k.code) body) ∧
      exec c s = .next (judgePins
        { s with
          reply := some (replyFrame s.unitAddr (BitVec.ofNat 8 k.code ||| 0x40) body)
          rx := { s.rx with state := .busy } })) ∧
    (k.isQuery = true → exec c s = .next (judgePins
      { s with
        reply := some (replyFrame s.unitAddr (BitVec.ofNat 8 k.code ||| 0x40) [0x20])
        rx := { s.rx with state := .busy } }))

/-- The queries report the state as it stands and change nothing, but that FEED_QUERY and LINK_STATS with their clear
flag set then clear the counters they reported (R18, R41, R60, R97, R128, R129, R144, R145, R155, R156). -/
def Obligations.QueriesReport : Prop :=
  ∀ (s : State) (m : Msg), Commands s m →
    (m.body = [] → exec (.ident m) s =
      .next (replying .ident
        ([0x00, 0x0B, 0x18, 0x01, s.unitAddr.zeroExtend 8, BitVec.ofNat 8 s.resetCause.code,
          BitVec.ofNat 8 s.monitor.lost.toNat] ++ byte4 s.blockCounter.toNat) s)) ∧
    (m.body = [] → exec (.poolQuery m) s =
      .next (replying .poolQuery
        (0 :: (byte2 s.freePages.length ++ byte2 (s.freePages.headD 0xFFFF) ++
          allProgs.flatMap fun p => byte1 (s.prog p).delay.reserve ++ byte2 (s.prog p).delay.chain.length)) s)) ∧
    (∀ p : ProgId, m.body = [BitVec.ofNat 8 p.val] →
      exec (.progQuery m) s = .next (replying .progQuery (0 :: progQueryFields s p) s) ∧
      exec (.loudQuery m) s = .next (replying .loudQuery (0 :: loudQueryFields s p) s) ∧
      exec (.delayQuery m) s = .next (replying .delayQuery (0 :: delayQueryFields s p) s)) ∧
    (∀ e : EntryId, m.body = [BitVec.ofNat 8 e.val] →
      exec (.alarmQuery m) s = .next (replying .alarmQuery (0 :: alarmQueryFields s e) s) ∧
      ∃ found : List EntryId,
        found = (allEntries.filter fun d => decide (e ≤ d) && scanLists s d).take 64 ∧
        exec (.alarmScan m) s = .next (replying .alarmScan
          (0 :: (byte1 found.length ++ nextIdentifier found ++ found.flatMap (listing s))) s)) ∧
    (∀ clear : Bool, m.body = [BitVec.ofNat 8 clear.toNat] → exec (.linkStats m) s =
      .next (replying .linkStats (0 :: (byte2 s.rx.checkFail ++ byte2 s.rx.gap ++ byte2 s.rx.overrun))
        (if clear then { s with rx := { s.rx with checkFail := 0, gap := 0, overrun := 0 } } else s))) ∧
    (∀ (f : FeedId) (clear : Bool), m.body = [BitVec.ofNat 8 f.val, BitVec.ofNat 8 clear.toNat] →
      exec (.feedQuery m) s = .next (replying .feedQuery (0 :: feedQueryFields s f)
        (if clear then s.setFeed f
          { s.feed f with
            port :=
              { (s.feed f).port with
                chA := { (s.feed f).port.chA with concealCount := 0, muteCount := 0 }
                chB := { (s.feed f).port.chB with concealCount := 0, muteCount := 0 } }
            conv := { (s.feed f).conv with slipCount := 0 } }
        else s)))

/-- Every reply to a query has the length of the table of R161, in every state. -/
def Obligations.QueryReplyLengths : Prop :=
  ∀ s : State,
    (∀ f, (feedQueryFields s f).length + 1 = 37) ∧
    (∀ p, (progQueryFields s p).length + 1 = 109 ∧ (loudQueryFields s p).length + 1 = 23 ∧
      (delayQueryFields s p).length + 1 = 29) ∧
    (∀ e, (alarmQueryFields s e).length + 1 = 14) ∧
    (∀ (body : List Byte) (r : Taken), evalIdent body s = .ok r → r.fields.length + 1 = 11) ∧
    (∀ (body : List Byte) (r : Taken), evalLinkStats body s = .ok r → r.fields.length + 1 = 7) ∧
    (∀ (body : List Byte) (r : Taken), evalPoolQuery body s = .ok r → r.fields.length + 1 = 29) ∧
    (∀ (body : List Byte) (r : Taken), evalNotices body s = .ok r →
      ∃ k, k ≤ 8 ∧ k ≤ s.notices.length ∧ r.fields.length + 1 = 6 + 12 * k) ∧
    (∀ (body : List Byte) (r : Taken), evalAlarmScan body s = .ok r → ∃ j, j ≤ 64 ∧ r.fields.length + 1 = 3 + 2 * j)

/-- NOTICES takes a count of 1 to 8, clamped: it reports and empties the missed set, and reports and removes the k
oldest notices (R154, R164). RESTART is answered OK and waits for its reply to be sent; as a broadcast it is due at once
(R158; the restart's phase is log 10). -/
def Obligations.NoticesFetchedAndRestartAsked : Prop :=
  ∀ (s : State) (m : Msg),
    (∀ b : Byte, Commands s m → m.body = [b] →
      let n := min (max b.toNat 1) 8
      let k := min n s.notices.length
      exec (.notices m) s =
        .next (replying .notices
          ((if b.toNat = n then 0 else 1) ::
            (byte4 s.missed.toNat ++ byte1 k ++ (s.notices.take k).flatMap fun x =>
              byte1 x.kind.code ++ byte1 x.source.code ++ padTo 6 0 x.detail ++ byte4 x.stamp.toNat))
          { s with missed := 0, notices := s.notices.drop k })) ∧
    (m.body = [] → Commands s m →
      exec (.restart m) s = .next (replying .restart [0] { s with restart := .afterReply })) ∧
    (m.body = [] → s.inReset = false → s.rx.state ≠ .busy → m.broadcast = true → m.check = false →
      exec (.restart m) s = .next (judgePins { s with restart := .due, rx := { s.rx with state := .hunt } }))

/-! ## Feed ports and converters -/

/-- FEED_CONFIG on a port whose enable stays as it is stores expected class, parity check and honour validity, and
touches nothing else (R3, R6). -/
def Obligations.FeedConfigKeepsReception : Prop :=
  ∀ (s : State) (m : Msg) (f : FeedId) (ex : Option RateClass) (par val : Bool), Commands s m →
    m.body = [BitVec.ofNat 8 f.val, BitVec.ofNat 8 (s.feed f).port.enable.toNat, BitVec.ofNat 8 (classCode ex),
      BitVec.ofNat 8 par.toNat, BitVec.ofNat 8 val.toNat] →
    exec (.feedConfig m) s = .next (replying .feedConfig (0 :: m.body.drop 1)
      (s.setFeed f
        { s.feed f with
          port := { (s.feed f).port with expected := ex, parityCheck := par, honourValidity := val } }))

/-- FEED_CONFIG that turns enable on starts the port clean, with its loss timer at 0 and its converter in SEARCH; one
that turns it off stops the port, makes all five conditions false and sets the converter to IDLE, last good samples
kept, and queues FEED_CLASS where a class was held. The counters, and every other feed's port and converter, are kept
(R4, R5, R21, R27). The feed is judged again: a disable makes a healthy one unhealthy, with the failover swaps of a feed
trigger, and an enable makes it healthy but where a FAILOVER entry still falls (R62, R70, R76; the stored loss timeout
and the span's mark are log 8). -/
def Obligations.FeedConfigSwitchesPort : Prop :=
  ∀ (s : State) (m : Msg) (f : FeedId) (ex : Option RateClass) (par val : Bool), Commands s m →
    ((s.feed f).port.enable = false →
      m.body = [BitVec.ofNat 8 f.val, 1, BitVec.ofNat 8 (classCode ex), BitVec.ofNat 8 par.toNat,
        BitVec.ofNat 8 val.toNat] →
      ∃ t, exec (.feedConfig m) s = .next t ∧
        (t.feed f).port =
          { enable := true, expected := ex, parityCheck := par, honourValidity := val
            chA := { concealCount := (s.feed f).port.chA.concealCount, muteCount := (s.feed f).port.chA.muteCount }
            chB := { concealCount := (s.feed f).port.chB.concealCount, muteCount := (s.feed f).port.chB.muteCount }
            lossTimer := some 0, lossTimeout := 3072 } ∧
        (t.feed f).conv = { state := .search, slipCount := (s.feed f).conv.slipCount } ∧
        t.feedCond f .feedLost = false ∧ t.feedCond f .rateUnknown = false ∧ t.feedCond f .feedErrors = false ∧
        ((s.feed f).healthy = false → (∀ k, ¬HoldsUnhealthy (s.entry (feedEntry f k))) → HealthGained f s t) ∧
        ((s.feed f).healthy = false →
          (∃ k, (s.entry (feedEntry f k)).config.action = .failover ∧ (s.entry (feedEntry f k)).state = .falling) →
          HealthLost f s t) ∧
        (∀ g, g ≠ f → (t.feed g).port = (s.feed g).port ∧ (t.feed g).conv = (s.feed g).conv) ∧
        RunsKept s t ∧ t.store = s.store ∧ t.freePages = s.freePages ∧ t.blockCounter = s.blockCounter) ∧
    ((s.feed f).port.enable = true →
      m.body = [BitVec.ofNat 8 f.val, 0, BitVec.ofNat 8 (classCode ex), BitVec.ofNat 8 par.toNat,
        BitVec.ofNat 8 val.toNat] →
      ∃ t, exec (.feedConfig m) s = .next t ∧
        (t.feed f).port =
          { enable := false, expected := ex, parityCheck := par, honourValidity := val
            chA := { (s.feed f).port.chA with badRun := 0, muted := false, goodRun := 0 }
            chB := { (s.feed f).port.chB with badRun := 0, muted := false, goodRun := 0 }
            lossTimeout := (s.feed f).port.lossTimeout } ∧
        (t.feed f).conv = { state := .idle, slipCount := (s.feed f).conv.slipCount } ∧
        (∀ k, t.feedCond f k = false) ∧ HealthLost f s t ∧
        (∀ k, (s.feed f).conv.cls = some k → Reported .feedClass (.feed f) [BitVec.ofNat 8 k.code, 0] s t) ∧
        (∀ g, g ≠ f → (t.feed g).port = (s.feed g).port ∧ (t.feed g).conv = (s.feed g).conv) ∧
        RunsKept s t ∧ t.store = s.store ∧ t.freePages = s.freePages ∧ t.blockCounter = s.blockCounter)

/-- A frame edge on an enabled feed opens a new frame and restarts the loss timer with the timeout of the class held.
Inside a span it counts an edge; with no span open it is edge 0 of one. A frame that it cuts short is handed to the
converter at that edge, each subframe with bits still missing judged bad first (R2). The first edge after a loss makes
FEED_LOST false and is edge 0 of a new span, with the timeout of 32 kHz (R1, R2, R12, R14, R15; the fields of the frame
and the span are log 8). -/
def Obligations.FrameEdgeOpensFrame : Prop :=
  lossTimeoutOf none = 3072 ∧ lossTimeoutOf (some .k32) = 3072 ∧ lossTimeoutOf (some .k44) = 2229 ∧
  lossTimeoutOf (some .k48) = 2048 ∧ lossTimeoutOf (some .k88) = 1115 ∧ lossTimeoutOf (some .k96) = 1024 ∧
  ∀ (s : State) (f : FeedId) (first : Bool), s.inReset = false → (s.feed f).port.enable = true →
    let q := (s.feed f).port
    let opened : Port :=
      { q with frame := .opened, lossTimer := some 0, lossTimeout := lossTimeoutOf (s.feed f).conv.cls }
    let edge0 : Port := { opened with spanOpen := true, edgeCount := 0, spanCounter := 0, overflowMark := false }
    (s.feedCond f .feedLost = false → (q.frame = .none ∨ q.frame = .handed) → q.spanOpen = true → q.edgeCount < 63 →
      exec (.frameEdge f first) s =
        .next (judgePins (s.setFeed f { s.feed f with port := { opened with edgeCount := q.edgeCount + 1 } }))) ∧
    (s.feedCond f .feedLost = false → (q.frame = .none ∨ q.frame = .handed) → q.spanOpen = false →
      exec (.frameEdge f first) s = .next (judgePins (s.setFeed f { s.feed f with port := edge0 }))) ∧
    (∀ (chA : Channel) (a : Sample), (q.frame = .opened ∧ (chA, a) = q.chA.takeBad ∨ q.frame = .gotA a ∧ chA = q.chA) →
      q.spanOpen = true → q.edgeCount < 63 →
      ∃ t, exec (.frameEdge f first) s = .next t ∧ t.feedCond f .feedLost = false ∧
        (t.feed f).port = { opened with edgeCount := q.edgeCount + 1, chA := chA, chB := q.chB.takeBad.1 } ∧
        (t.feed f).conv = ((s.feed f).conv.takeFrame ⟨a, q.chB.takeBad.2⟩).1 ∧
        (t.feedCond f .feedErrors = true ↔ chA.muted = true ∨ q.chB.takeBad.1.muted = true) ∧
        (∀ g, g ≠ f → (t.feed g).port = (s.feed g).port ∧ (t.feed g).conv = (s.feed g).conv) ∧ RunsKept s t ∧
        t.store = s.store) ∧
    (s.feedCond f .feedLost = true → q.frame = .none → q.spanOpen = false → (s.feed f).conv.cls = none →
      ∃ t, exec (.frameEdge f first) s = .next t ∧ t.feedCond f .feedLost = false ∧
        (t.feed f).port = { edge0 with lossTimeout := 3072 } ∧ (t.feed f).conv = (s.feed f).conv ∧
        t.feedCond f .rateUnknown = s.feedCond f .rateUnknown ∧
        t.feedCond f .feedErrors = s.feedCond f .feedErrors ∧
        (∀ g, g ≠ f → (t.feed g).port = (s.feed g).port ∧ (t.feed g).conv = (s.feed g).conv) ∧ RunsKept s t ∧
        t.store = s.store)

/-- The 64th edge after edge 0 yields a span: it becomes the last span, RATE_UNKNOWN says whether it matched no window,
the converter is handed it with its verdict, SRC_UNLOCKED says whether that left it in TRACK, the edge is edge 0 of the
next span, and the loss timer restarts with the timeout of the class then held. A frame that the edge also cuts short is
handed before the span or after it, as the row's operand has it (R12, R15 to R17, R23 to R26, R37; the operand is log
23, the fields log 8). A change of the held class queues FEED_CLASS and recomputes the delay of every program that runs
or stops with the feed in its current set; without one no delay changes (R27, R58, R118, R122, R124, R125). -/
def Obligations.SpanYielded : Prop :=
  ∀ (s : State) (f : FeedId) (first : Bool), s.inReset = false → (s.feed f).port.enable = true →
    (s.feed f).port.spanOpen = true → (s.feed f).port.edgeCount = 63 →
    let q := (s.feed f).port
    let sp : Span := ⟨q.spanCounter, q.overflowMark⟩
    let verdict := spanVerdict q.expected sp
    ∃ t, exec (.frameEdge f first) s = .next t ∧ (t.feed f).port.lastSpan = some sp ∧
      (t.feed f).port.edgeCount = 0 ∧ (t.feed f).port.spanCounter = 0 ∧ (t.feed f).port.overflowMark = false ∧
      (t.feed f).port.frame = .opened ∧ (t.feed f).port.lossTimer = some 0 ∧
      (t.feed f).port.lossTimeout = lossTimeoutOf (t.feed f).conv.cls ∧
      ((q.frame = .none ∨ q.frame = .handed) → (t.feed f).conv = (s.feed f).conv.takeSpan sp.ticks verdict) ∧
      (∀ (chA : Channel) (a : Sample),
        (q.frame = .opened ∧ (chA, a) = q.chA.takeBad ∨ q.frame = .gotA a ∧ chA = q.chA) →
        (t.feed f).port.chA = chA ∧ (t.feed f).port.chB = q.chB.takeBad.1 ∧ (t.feed f).conv =
          if first then ((s.feed f).conv.takeFrame ⟨a, q.chB.takeBad.2⟩).1.takeSpan sp.ticks verdict
          else (((s.feed f).conv.takeSpan sp.ticks verdict).takeFrame ⟨a, q.chB.takeBad.2⟩).1) ∧
      ((t.feed f).conv.cls ≠ (s.feed f).conv.cls → Reported .feedClass (.feed f)
        [BitVec.ofNat 8 (classCode (s.feed f).conv.cls), BitVec.ofNat 8 (classCode (t.feed f).conv.cls)] s t) ∧
      (∀ p, ((t.feed f).conv.cls ≠ (s.feed f).conv.cls → (s.prog p).active = true → Names (s.prog p).currentSet f →
          (t.prog p).delay.dtgt = delayTargetOf t (t.prog p) ∧
            DelayFollows (ringBound t (t.prog p)) (s.prog p) (t.prog p)) ∧
        ((t.feed f).conv.cls = (s.feed f).conv.cls ∨ (s.prog p).active = false ∨ ¬Names (s.prog p).currentSet f →
          (t.prog p).delay = (s.prog p).delay)) ∧
      t.feedCond f .rateUnknown = verdict.isNone ∧ t.feedCond f .feedLost = false ∧
      (t.feedCond f .srcUnlocked = true ↔ (t.feed f).conv.state = .track) ∧
      (∀ g, g ≠ f → (t.feed g).port = (s.feed g).port ∧ (t.feed g).conv = (s.feed g).conv) ∧ RunsKept s t ∧
      t.store = s.store

/-- The step of a matching span is 2^35 over S rounded to the nearest integer, a half up; over the class windows it lies
between 692,137 and 2,118,226; a span of no match, as every one with its overflow mark set is, yields none; and
every step and every estimate R fits in 22 bits (R28). -/
def Obligations.StepIsRoundedRatio : Prop :=
  (∀ S : Nat, 16221 ≤ S → S ≤ 49643 →
    stepOf S = (2 ^ 35 + S / 2) / S ∧ 2 * 2 ^ 35 ≤ (2 * stepOf S + 1) * S ∧ (2 * stepOf S - 1) * S ≤ 2 * 2 ^ 35 ∧
      692137 ≤ stepOf S ∧ stepOf S ≤ 2118226 ∧ stepOf S < 2 ^ 22) ∧
  (∀ (c : Converter) (S S' : Nat), c.takeSpan S none = c.takeSpan S' none) ∧
  (∀ (expected : Option RateClass) (S : Nat), spanVerdict expected ⟨S, true⟩ = none) ∧
  ∀ (c : Converter) (k : RateClass) (S : Nat), 16221 ≤ S → S ≤ 49643 → c.ratio < 2 ^ 22 →
    (c.takeSpan S (some k)).ratio < 2 ^ 22

/-- A span of the class held by a converter in TRACK or LOCKED moves R to R + floor((m − R + 8) / 16) after lock tests
made with R as it stood, and sets U = R + 128 × (fill − 16) with the new R and the fill at that instant, a correction of
at most 2,048; the FIFO, the phase and the history are left. A span that sets or changes the class seeds R with m, takes
U with fill 0, and leaves the converter in TRACK and in the refill wait with every other field but the slip count
cleared; one of no match leaves a converter that held a class in SEARCH with every field but the slip count cleared.
Neither a frame nor an output sample computes R or U again (R22, R24 to R26, R29, R31). -/
def Obligations.SpanMovesRatioAndStep : Prop :=
  ∀ (c : Converter) (k : RateClass) (S : Nat) (fr : InFrame), 16221 ≤ S → S ≤ 49643 →
    ((c.state = .track ∨ c.state = .locked) → c.cls = some k → 692137 ≤ c.ratio →
      let m := stepOf S
      let d := ((m : Int) - c.ratio).natAbs
      let c' := c.takeSpan S (some k)
      (c'.ratio : Int) = (c.ratio : Int) + ((m : Int) - c.ratio + 8) / 16 ∧
        (c'.stepUsed : Int) = c'.ratio + 128 * ((c.fifo.length : Int) - 16) ∧
        (c.fifo.length ≤ 32 → ((c'.stepUsed : Int) - c'.ratio).natAbs ≤ 2048) ∧
        c'.cls = some k ∧ c'.fifo = c.fifo ∧ c'.phase = c.phase ∧ c'.history = c.history ∧
        (c.state = .track → d ≤ 128 → c'.state = if 7 ≤ c.lockRun then .locked else .track) ∧
        (c.state = .track → 128 < d → c'.state = .track ∧ c'.lockRun = 0) ∧
        (c.state = .locked → d ≤ 1024 → c'.state = .locked ∧ c'.unlockRun = 0) ∧
        (c.state = .locked → 1024 < d → c'.state = if 1 ≤ c.unlockRun then .track else .locked)) ∧
    (c.state ≠ .idle → (c.state = .search ∨ c.cls ≠ some k) →
      (c.takeSpan S (some k)).stepUsed + 2048 = stepOf S ∧
        c.takeSpan S (some k) =
          { state := .track, cls := some k, ratio := stepOf S, stepUsed := stepOf S - 2048, refillWait := true
            slipCount := c.slipCount }) ∧
    ((c.state = .track ∨ c.state = .locked) → c.takeSpan S none = { state := .search, slipCount := c.slipCount }) ∧
    (c.state = .search → c.takeSpan S none = c) ∧
    ((c.takeFrame fr).1.ratio = c.ratio ∧ c.advance.1.ratio = c.ratio ∧
      (c.takeFrame fr).1.stepUsed = c.stepUsed ∧ c.advance.1.stepUsed = c.stepUsed)

/-- Judgement and concealment: a complete subframe is bad exactly when parity check is on and it holds an odd number of
ones, or honour validity is on and V is 0 (R7). A channel that is not muted delivers and remembers a good sample,
conceals up to four bad ones with the last good sample, and mutes at the fifth (R8). A muted one delivers zero, a
bad subframe setting its good run back to 0, until the 64th good subframe in a row, which it delivers (R9). -/
def Obligations.ConcealmentOfChannel : Prop :=
  (∀ (q : Port) (w : BitVec 32), q.judgedBad w = true ↔
    (q.parityCheck = true ∧ ((List.range 32).filter fun i => w.getLsbD i).length % 2 = 1) ∨
      (q.honourValidity = true ∧ w.getLsbD 7 = false)) ∧
  ∀ c : Channel,
    (c.muted = false →
      (∀ x, c.takeGood x = ({ c with badRun := 0, lastGood := x }, x)) ∧
      (c.badRun ≤ 3 → c.takeBad =
        ({ c with badRun := c.badRun + 1, concealCount := min (c.concealCount + 1) 65535 }, c.lastGood)) ∧
      (4 ≤ c.badRun → c.takeBad =
        ({ c with badRun := 5, muted := true, goodRun := 0, muteCount := min (c.muteCount + 1) 65535 }, 0))) ∧
    (c.muted = true → c.takeBad = ({ c with goodRun := 0 }, 0)) ∧
    (c.muted = true → c.goodRun = 0 → ∀ (xs : List Sample) (x : Sample),
      let take := fun (r : Channel × List Sample) y => ((r.1.takeGood y).1, r.2 ++ [(r.1.takeGood y).2])
      (xs.length ≤ 63 → (xs.foldl take (c, [])).1.muted = true ∧ (xs.foldl take (c, [])).1.goodRun = xs.length ∧
        (xs.foldl take (c, [])).2 = List.replicate xs.length 0) ∧
      (xs.length = 63 → ((xs.foldl take (c, [])).1.takeGood x) =
        ({ c with muted := false, badRun := 0, goodRun := 0, lastGood := x }, x)))

/-- The two subframes of a frame on an enabled feed: each is judged and acted on by its own channel, FEED_ERRORS says
whether a channel is muted, and the second hands the frame to the converter, where a slip makes SRC_SLIP true. A frame
that has its 64 bits, and a disabled port, ignore further bits (R1, R2, R7, R10). A converter in SEARCH discards the
frame. One in TRACK or LOCKED takes it at the tail of its FIFO, the frame that brings fill to 16 ending a refill wait;
with 32 held, the frame and the 16 oldest are discarded and a slip is counted. At an output sample it stands still in a
refill wait; else its phase advances by U and it consumes k frames from the head, and where fewer are held it consumes
those, repeats the last, enters the refill wait and counts a slip (R23, R32 to R36). How many frames the history keeps
is log 3, and a zero frame where none was ever consumed log 25. -/
def Obligations.SubframesMakeFrame : Prop :=
  (∀ (s : State) (f : FeedId) (w : BitVec 32), s.inReset = false →
    let q := (s.feed f).port
    (q.enable = true → q.frame = .opened → ∃ t, exec (.subframeJudged f w) s = .next t ∧
      (t.feed f).port = { q with chA := (q.chA.take q (some w)).1, frame := .gotA (q.chA.take q (some w)).2 } ∧
      (t.feed f).conv = (s.feed f).conv ∧
      (t.feedCond f .feedErrors = true ↔ (q.chA.take q (some w)).1.muted = true ∨ q.chB.muted = true) ∧
      RunsKept s t ∧
      (∀ g, g ≠ f → (t.feed g).port = (s.feed g).port ∧ (t.feed g).conv = (s.feed g).conv)) ∧
    (∀ a, q.enable = true → q.frame = .gotA a → ∃ t, exec (.subframeJudged f w) s = .next t ∧
      (t.feed f).port = { q with chB := (q.chB.take q (some w)).1, frame := .handed } ∧
      (t.feed f).conv = ((s.feed f).conv.takeFrame ⟨a, (q.chB.take q (some w)).2⟩).1 ∧
      t.feedCond f .srcSlip =
        (s.feedCond f .srcSlip || ((s.feed f).conv.takeFrame ⟨a, (q.chB.take q (some w)).2⟩).2) ∧
      (t.feedCond f .feedErrors = true ↔ q.chA.muted = true ∨ (q.chB.take q (some w)).1.muted = true) ∧
      RunsKept s t ∧
      (∀ g, g ≠ f → (t.feed g).port = (s.feed g).port ∧ (t.feed g).conv = (s.feed g).conv)) ∧
    (q.enable = false ∨ q.frame = .none ∨ q.frame = .handed → exec (.subframeJudged f w) s = .next (judgePins s))) ∧
  ∀ (c : Converter) (fr : InFrame),
    (c.state = .idle ∨ c.state = .search → c.takeFrame fr = (c, false)) ∧
    (c.state = .track ∨ c.state = .locked →
      (c.fifo.length < 32 → c.takeFrame fr =
        ({ c with fifo := c.fifo ++ [fr], refillWait := c.refillWait && decide (c.fifo.length + 1 < 16) }, false)) ∧
      (c.fifo.length = 32 → c.takeFrame fr =
        ({ c with fifo := c.fifo.drop 16, slipCount := min (c.slipCount + 1) 65535 }, true))) ∧
    (c.state = .idle ∨ c.state = .search ∨ c.refillWait = true → c.advance = (c, false)) ∧
    (c.state = .track ∨ c.state = .locked → c.refillWait = false →
      let k := (c.phase + c.stepUsed) / 2 ^ 20
      let keep := Config.historyExtra + 1
      let last := c.fifo.getLast?.or c.lastConsumed
      let moved : Converter := { c with phase := (c.phase + c.stepUsed) % 2 ^ 20 }
      (k = 0 → c.advance = (moved, false)) ∧
      (1 ≤ k → k ≤ c.fifo.length → c.advance =
        ({ moved with
            fifo := c.fifo.drop k, lastConsumed := (c.fifo.take k).getLast?
            history := ((c.fifo.take k).reverse ++ c.history).take keep }, false)) ∧
      (c.fifo.length < k → c.advance =
        ({ moved with
            fifo := [], lastConsumed := last, refillWait := true, slipCount := min (c.slipCount + 1) 65535
            history := (last.getD {} :: (c.fifo.reverse ++ c.history)).take keep }, true)))

/-- The loss of a feed whose timer has reached its timeout: FEED_LOST true, RATE_UNKNOWN and FEED_ERRORS false, the
frame in progress and the span dropped, the channels clean with their counters, the timer stopped, and a converter that
held a class in SEARCH, with FEED_CLASS queued from that class to none (R13, R22, R27). Of a healthy feed whose
FEED_LOST entry stands in CLEAR with raise delay 0 and action FAILOVER, as it does by default, the loss is a feed
trigger, in either order of the two; with another action or a raise delay the feed stays healthy and no swap changes
(R62, R70, R132; the operand is log 23). -/
def Obligations.FeedLossDeclared : Prop :=
  ∀ (s : State) (f : FeedId) (first : Bool) (n : Nat), s.inReset = false → (s.feed f).port.enable = true →
    s.feedCond f .feedLost = false → (s.feed f).port.lossTimer = some n → (s.feed f).port.lossTimeout ≤ n →
    ∃ t, exec (.feedLossTimeout f first) s = .next t ∧
      t.feedCond f .feedLost = true ∧ t.feedCond f .rateUnknown = false ∧ t.feedCond f .feedErrors = false ∧
      (t.feed f).port =
        { (s.feed f).port with
          frame := .none, spanOpen := false, edgeCount := 0, spanCounter := 0, overflowMark := false, lossTimer := none
          chA := { concealCount := (s.feed f).port.chA.concealCount, muteCount := (s.feed f).port.chA.muteCount }
          chB := { concealCount := (s.feed f).port.chB.concealCount, muteCount := (s.feed f).port.chB.muteCount } } ∧
      ((s.feed f).conv.state = .track ∨ (s.feed f).conv.state = .locked →
        (t.feed f).conv = { state := .search, slipCount := (s.feed f).conv.slipCount } ∧
          t.feedCond f .srcUnlocked = false ∧
          ∀ k, (s.feed f).conv.cls = some k →
            Reported .feedClass (.feed f) [BitVec.ofNat 8 k.code, 0] s t) ∧
      ((s.feed f).healthy = true → (∀ k, ¬HoldsUnhealthy (s.entry (feedEntry f k))) →
        (s.entry (feedEntry f .feedLost)).state = .clear →
        let c := (s.entry (feedEntry f .feedLost)).config
        (c.action = .failover → c.raiseDelay = 0 → HealthLost f s t) ∧
          (c.action ≠ .failover ∨ c.raiseDelay ≠ 0 →
            (t.feed f).healthy = true ∧ ∀ p, (t.prog p).swap = (s.prog p).swap)) ∧
      ((s.feed f).conv.state = .search → (t.feed f).conv = (s.feed f).conv) ∧
      (∀ g, g ≠ f → (t.feed g).port = (s.feed g).port ∧ (t.feed g).conv = (s.feed g).conv) ∧ RunsKept s t ∧
      t.store = s.store

/-! ## House reference -/

/-- An HREF edge leaves the monitor PRESENT with its timer at 0, HOUSE_REF_LOST false and the clock following the
reference; 2,048 ticks without one leave it LOST with the clock held. Neither touches a feed, a program or the samples
counted (R39, R40; the clock's three values are log 27). -/
def Obligations.HouseReference : Prop :=
  ∀ s : State, s.inReset = false →
    (∃ t, exec .houseRefEdge s = .next t ∧ t.monitor = { lost := false, timer := some 0, clock := .following } ∧
      t.cond houseRefEntry = false ∧ t.feeds = s.feeds ∧ t.progs = s.progs ∧ t.tick = s.tick ∧
      t.sampleInBlock = s.sampleInBlock ∧ t.blockCounter = s.blockCounter ∧ OtherEntriesKept houseRefEntry s t) ∧
    (∀ n, s.monitor.lost = false → s.monitor.timer = some n → 2048 ≤ n →
      ∃ t, exec .houseRefLossTimeout s = .next t ∧ t.monitor = { lost := true, timer := none, clock := .held } ∧
        t.cond houseRefEntry = true ∧ t.feeds = s.feeds ∧ t.progs = s.progs ∧ t.tick = s.tick ∧
        t.sampleInBlock = s.sampleInBlock ∧ t.blockCounter = s.blockCounter ∧ OtherEntriesKept houseRefEntry s t)

/-! ## Programs -/

/-- PROG_DEFINE taken in UNDEFINED or DEFINED: the program's pages join the tail of the free list, and its definition
starts again with the slot count clamped to 1 to 8, the codes of its slots, absent sets and default settings; in RUNNING
and STOPPING it is refused with WRONG_STATE (R44). The swap record and the output fade kept are log 30, and the step
direction and interval of the fresh delay record are log 33. -/
def Obligations.ProgDefineStartsAgain : Prop :=
  ∀ (s : State) (m : Msg) (p : ProgId) (b : Byte) (ws : List WeightCode), Commands s m → ws.length = 8 →
    m.body = [BitVec.ofNat 8 p.val, b] ++ ws.flatMap (fun w => byte1 w.code) →
    let c := min (max b.toNat 1) 8
    (((s.prog p).state = .undefined ∨ (s.prog p).state = .defined) → ∃ t, exec (.progDefine m) s = .next t ∧
      t.prog p =
        { state := .defined, slots := c, weights := ws.take c, swap := (s.prog p).swap
          outLevel := (s.prog p).outLevel, outDir := (s.prog p).outDir } ∧
      t.freePages = s.freePages ++ (s.prog p).delay.chain ∧
      t.reply = some (replyFrame s.unitAddr 0x0C
        ((if b.toNat = c then 0 else 1) :: BitVec.ofNat 8 c ::
          ((ws.take c).flatMap (fun w => byte1 w.code) ++ List.replicate (8 - c) 0))) ∧
      OtherProgsKept p s t ∧ t.feeds = s.feeds ∧ t.store = s.store) ∧
    ((s.prog p).state = .running ∨ (s.prog p).state = .stopping →
      exec (.progDefine m) s = .next (replying .progDefine [0x11] s))

/-- PROG_CLEAR: in DEFINED it returns the pages to the tail of the free list and makes the program UNDEFINED with no
slots, weights or sets, its settings kept until the next PROG_DEFINE; in UNDEFINED it changes nothing; in RUNNING and
STOPPING it is refused with WRONG_STATE (R46). -/
def Obligations.ProgClearReturnsPages : Prop :=
  ∀ (s : State) (m : Msg) (p : ProgId), Commands s m → m.body = [BitVec.ofNat 8 p.val] →
    ((s.prog p).state = .defined → ∃ t, exec (.progClear m) s = .next t ∧
      (∃ d, t.prog p =
        { s.prog p with state := .undefined, slots := 0, weights := [], sets := .replicate 4 none, delay := d } ∧
        d.reserve = 0 ∧ d.chain = [] ∧ d.ltgt = (s.prog p).delay.ltgt ∧
        d.slewLimit = (s.prog p).delay.slewLimit ∧ d.interval = (s.prog p).delay.interval) ∧
      t.freePages = s.freePages ++ (s.prog p).delay.chain ∧
      t.reply = some (replyFrame s.unitAddr 0x0D [0]) ∧ OtherProgsKept p s t ∧
      t.feeds = s.feeds ∧ t.store = s.store) ∧
    ((s.prog p).state = .undefined → exec (.progClear m) s = .next (replying .progClear [0] s)) ∧
    ((s.prog p).state = .running ∨ (s.prog p).state = .stopping →
      exec (.progClear m) s = .next (replying .progClear [0x11] s))

/-- SET_DEFINE on a DEFINED program: a list of exactly c distinct feed channels defines the rank, and a list of another
length clears it; the rank's mark is cleared (R47, R49). So it is of a rank off the stack of a program that runs or
stops, which is an eligibility event of the program: NO_SOURCE is judged again, the return timer of a RUNNING program
whose return set is not eligible becomes 0, and a NO_SOURCE that ends with another set eligible begins a failover swap
(R49, R63, R73, R76). Of a rank on the stack of a program that runs or stops, of rank 0 of a RUNNING one where the list
would clear it, and of any rank of an UNDEFINED program, it is refused with WRONG_STATE (R48). -/
def Obligations.SetDefineTakenOrRefused : Prop :=
  ∀ (s : State) (m : Msg) (p : ProgId) (r : Rank) (l : List SlotSource), Commands s m → l.Nodup →
    l.length ≤ 8 →
    m.body = [BitVec.ofNat 8 p.val, BitVec.ofNat 8 r.val] ++ l.flatMap SlotSource.bytes →
    let v := if l.length = (s.prog p).slots then some l else none
    let reply := [0, BitVec.ofNat 8 r.val, BitVec.ofNat 8 (v.getD []).length] ++ (v.getD []).flatMap SlotSource.bytes
    ((s.prog p).state = .defined → exec (.setDefine m) s = .next (replying .setDefine reply
      (s.setProg p
        { s.prog p with sets := (s.prog p).sets.set r.val v, marks := (s.prog p).marks.set r.val false }))) ∧
    ((s.prog p).active = true → r ∉ (s.prog p).stack →
      ((s.prog p).state = .running → r = 0 → v.isSome = true) →
      ∃ t, exec (.setDefine m) s = .next t ∧
        (∃ w n fell, t.prog p =
          { s.prog p with
            sets := (s.prog p).sets.set r.val v, marks := (s.prog p).marks.set r.val false, swap := w, returnTimer := n
            returnFell := fell }) ∧
        (t.progCond p .noSource = true ↔
          currentEligible t (t.prog p) = false ∧ ∀ r', eligible t (t.prog p) r' = false) ∧
        (t.prog p).returnTimer =
          (if (s.prog p).state = .running ∧ returnEligible t (t.prog p) = false then 0 else (s.prog p).returnTimer) ∧
        (t.prog p).swap =
          (if s.progCond p .noSource = true ∧ t.progCond p .noSource = false ∧ (s.prog p).state = .running ∧
              currentEligible t (t.prog p) = false ∧ (s.prog p).swap.phase ≠ .fadeOut then
            { phase := .fadeOut, level := (s.prog p).swap.level, cause := some .failover
              origin := (s.prog p).currentRank }
          else (s.prog p).swap) ∧
        t.reply = some (replyFrame s.unitAddr 0x0E reply) ∧ OtherProgsKept p s t ∧ t.feeds = s.feeds ∧
        t.store = s.store ∧ t.freePages = s.freePages) ∧
    ((s.prog p).state = .undefined ∨ (s.prog p).active = true ∧ r ∈ (s.prog p).stack ∨
        (s.prog p).state = .running ∧ r = 0 ∧ v = none →
      exec (.setDefine m) s = .next (replying .setDefine [0x11] s))

/-- PROG_START of a DEFINED program with rank 0 defined and a reserve: it runs on the lowest rank whose feeds are all
healthy, or on rank 0 with NO_SOURCE true; the fade-in begins at 0, the measurement is empty, and Dcur equals the Dtgt
of the latency equation; SOURCE_CHANGED is queued from none to that rank with cause START (R51). It is refused with
WRONG_STATE in UNDEFINED, in RUNNING, and in DEFINED without rank 0 or without a reserve, and with BUSY in STOPPING
(R50). -/
def Obligations.ProgStartRuns : Prop :=
  ∀ (s : State) (m : Msg) (p : ProgId), Commands s m → m.body = [BitVec.ofNat 8 p.val] →
    ((s.prog p).state = .defined → ((s.prog p).setAt 0).isSome = true → 1 ≤ (s.prog p).delay.reserve →
    ∃ t r, exec (.progStart m) s = .next t ∧
      (rankHealthy s (s.prog p) r = true ∧ (∀ r' < r, rankHealthy s (s.prog p) r' = false) ∧
          t.progCond p .noSource = false ∨
        r = 0 ∧ (∀ r', rankHealthy s (s.prog p) r' = false) ∧ t.progCond p .noSource = true) ∧
      (t.prog p).state = .running ∧ (t.prog p).stack = [r] ∧ (t.prog p).marks = .replicate 4 false ∧
      (t.prog p).swap = {} ∧ (t.prog p).returnTimer = 0 ∧ (t.prog p).outLevel = 0 ∧ (t.prog p).outDir = .fadeIn ∧
      (t.prog p).loud.window = [] ∧ (t.prog p).loud.history = [] ∧ (t.prog p).loud.ownGain = 0 ∧
      (t.prog p).loud.silenceTimer = (s.prog p).loud.active.silenceTime ∧
      (t.prog p).delay.dtgt = delayTargetOf s { s.prog p with stack := [r] } ∧
      (t.prog p).delay.dcur = (t.prog p).delay.dtgt ∧ (t.prog p).delay.op = .none ∧
      (t.prog p).delay.flushCounter = 0 ∧ (t.progCond p .onBackup = true ↔ r ≠ 0) ∧
      t.reply = some (replyFrame s.unitAddr 0x0F
        [0, BitVec.ofNat 8 r.val, BitVec.ofNat 8 (t.progCond p .noSource).toNat]) ∧
      Reported .sourceChanged (.program p) [0xFF, BitVec.ofNat 8 r.val, 0] s t ∧
      t.freePages = s.freePages ∧ t.store = s.store ∧
      (∀ f, (t.feed f).port = (s.feed f).port ∧ (t.feed f).conv = (s.feed f).conv) ∧
      (∀ q, q ≠ p → (t.prog q).state = (s.prog q).state ∧ (t.prog q).stack = (s.prog q).stack ∧
        (t.prog q).delay = (s.prog q).delay)) ∧
    ((s.prog p).state = .undefined ∨ (s.prog p).state = .running ∨
      (s.prog p).state = .defined ∧ ((s.prog p).setAt 0 = none ∨ (s.prog p).delay.reserve = 0) →
      exec (.progStart m) s = .next (replying .progStart [0x11] s)) ∧
    ((s.prog p).state = .stopping → exec (.progStart m) s = .next (replying .progStart [0x10] s))

/-- PROG_STOP of a RUNNING program: a swap in flight is abandoned with its level held and the stack reduced to its top,
the delay operation ends with Dcur whole, and the stop fade begins at the level reached. No feed, entry, condition or
notice changes, and of another program only its applied gain and its ramp (R53, R80, R105, R127). At output fade level 0
the stop fade ends at the instant of the message: the program is DEFINED, with all that the end of a stop fade leaves
(R53, R54, R111; that PROGRAM_STOPPED is its newest notice is log 37). In DEFINED and STOPPING nothing changes and the
reply is OK, and in UNDEFINED it is refused with WRONG_STATE (R53). -/
def Obligations.ProgStopFadesOut : Prop :=
  ∀ (s : State) (m : Msg) (p : ProgId), Commands s m → m.body = [BitVec.ofNat 8 p.val] →
    ((s.prog p).state = .undefined → exec (.progStop m) s = .next (replying .progStop [0x11] s)) ∧
    ((s.prog p).state = .defined ∨ (s.prog p).state = .stopping →
      exec (.progStop m) s = .next (replying .progStop [0] s)) ∧
    ((s.prog p).state = .running → (s.prog p).outLevel ≠ 0 →
      ∃ t, exec (.progStop m) s = .next t ∧ (t.prog p).state = .stopping ∧
      (t.prog p).outDir = .fadeOut ∧
      (t.prog p).outLevel = (s.prog p).outLevel ∧ (t.prog p).swap.phase = .none ∧
      (t.prog p).swap.level = (s.prog p).swap.level ∧
      (t.prog p).stack =
        (if (s.prog p).swap.phase = .none then (s.prog p).stack else (s.prog p).stack.getLast?.toList) ∧
      (t.prog p).delay.op = .none ∧ (t.prog p).delay.dcur = (s.prog p).delay.dcur ∧
      (t.prog p).loud.appliedGain = (s.prog p).loud.ownGain ∧ (t.prog p).returnTimer = (s.prog p).returnTimer ∧
      t.feeds = s.feeds ∧ t.entries = s.entries ∧ t.conds = s.conds ∧ t.notices = s.notices ∧ t.store = s.store ∧
      t.reply = some (replyFrame s.unitAddr 0x10 [0]) ∧
      (∀ q, q ≠ p → ∃ a b n, t.prog q =
        { s.prog q with loud := { (s.prog q).loud with appliedGain := a, rampTarget := b, rampLeft := n } })) ∧
    ((s.prog p).state = .running → (s.prog p).outLevel = 0 →
      ∃ t, exec (.progStop m) s = .next t ∧ (t.prog p).state = .defined ∧
      (t.prog p).stack = [] ∧ (t.prog p).marks = .replicate 4 false ∧ (t.prog p).swap = {} ∧
      (t.prog p).outDir = .none ∧ (t.prog p).outLevel = 0 ∧ (t.prog p).returnTimer = 0 ∧
      (t.prog p).loud.ownGain = 0 ∧ (t.prog p).loud.appliedGain = 0 ∧ (t.prog p).loud.limiterGain = 1 ∧
      (t.prog p).loud.window = (s.prog p).loud.window ∧ (t.prog p).slots = (s.prog p).slots ∧
      (t.prog p).sets = (s.prog p).sets ∧ (t.prog p).delay = { (s.prog p).delay with op := .none, progress := 0 } ∧
      (∀ k, t.progCond p k = false) ∧ StopReported p (s.prog p).currentRank s t ∧ t.feeds = s.feeds ∧
      t.store = s.store ∧ t.reply = some (replyFrame s.unitAddr 0x10 [0]) ∧
      (∀ q, q ≠ p → ∃ a b n, t.prog q =
        { s.prog q with loud := { (s.prog q).loud with appliedGain := a, rampTarget := b, rampLeft := n } }))

/-- PROG_RESTART of a RUNNING program empties its measurement, flushes its ring with Dcur at the Dtgt recomputed, ends
its delay operation, and keeps its stack, swap, marks and return timer; in every other state
it is refused with WRONG_STATE (R55). -/
def Obligations.ProgRestartKeepsStack : Prop :=
  ∀ (s : State) (m : Msg) (p : ProgId), Commands s m → m.body = [BitVec.ofNat 8 p.val] →
    ((s.prog p).state ≠ .running → exec (.progRestart m) s = .next (replying .progRestart [0x11] s)) ∧
    ((s.prog p).state = .running → ∃ t, exec (.progRestart m) s = .next t ∧
      (t.prog p).state = .running ∧ (t.prog p).stack = (s.prog p).stack ∧
      (t.prog p).swap = (s.prog p).swap ∧ (t.prog p).marks = (s.prog p).marks ∧
      (t.prog p).returnTimer = (s.prog p).returnTimer ∧ (t.prog p).loud.window = [] ∧
      (t.prog p).loud.history = [] ∧ (t.prog p).loud.ownGain = 0 ∧ (t.prog p).loud.incomplete = true ∧
      (t.prog p).loud.silenceTimer = (s.prog p).loud.active.silenceTime ∧
      (t.prog p).delay.dtgt = delayTargetOf s (s.prog p) ∧ (t.prog p).delay.dcur = (t.prog p).delay.dtgt ∧
      (t.prog p).delay.op = .none ∧ (t.prog p).delay.flushCounter = 0 ∧
      (t.prog p).outLevel = (s.prog p).outLevel ∧ ((s.prog p).outLevel < 480 → (t.prog p).outDir = .fadeIn) ∧
      t.progCond p .silence = false ∧ t.reply = some (replyFrame s.unitAddr 0x11 [0]) ∧ t.feeds = s.feeds ∧
      t.store = s.store)

/-- The ends of the output fades: a fade-in at 480 loses its direction and nothing else changes (R52); a stop fade at 0
makes the program DEFINED with an empty stack, no marks, the swap level at 480, G and A at 0 and its run conditions
false, the definition, sets, reserve, Dtgt and Dcur kept, and PROGRAM_STOPPED queued with the last current rank (R54,
R111; that it is the newest notice of the event is log 37). -/
def Obligations.OutputFadesEnd : Prop :=
  ∀ (s : State) (p : ProgId), s.inReset = false →
    ((s.prog p).outDir = .fadeIn → (s.prog p).outLevel = 480 →
      exec (.startFadeEnd p) s = .next (judgePins (s.setProg p { s.prog p with outDir := .none }))) ∧
    ((s.prog p).state = .stopping → (s.prog p).outLevel = 0 →
      ∃ t, exec (.stopFadeEnd p) s = .next t ∧ (t.prog p).state = .defined ∧ (t.prog p).stack = [] ∧
        (t.prog p).marks = .replicate 4 false ∧ (t.prog p).swap = {} ∧ (t.prog p).outDir = .none ∧
        (t.prog p).outLevel = 0 ∧ (t.prog p).returnTimer = 0 ∧ (t.prog p).loud.ownGain = 0 ∧
        (t.prog p).loud.appliedGain = 0 ∧ (t.prog p).loud.limiterGain = 1 ∧
        (t.prog p).loud.window = (s.prog p).loud.window ∧ (t.prog p).slots = (s.prog p).slots ∧
        (t.prog p).sets = (s.prog p).sets ∧ (t.prog p).delay = (s.prog p).delay ∧
        (∀ k, t.progCond p k = false) ∧ StopReported p (s.prog p).currentRank s t ∧ OtherProgsKept p s t ∧
        t.feeds = s.feeds ∧ t.store = s.store)

/-- One output sample. What is left of its 512 master ticks passes: loss timers, span counters and the monitor's timer
count. Every converter advances and delivers a frame, zeros in IDLE and SEARCH, and a slip makes SRC_SLIP true. A
program that does not run is untouched and sends zeros. Of one that runs, slot k's sample of the delivered frames times
its swap fade level over 480 is written at the write position of slot k's ring; the ring is read at Dcur and the trim,
into the tap, whose squares join the accumulators; the sample read times the multiplier of the present gain enters the
limiter, whose gain below 1 counts as held down; and the limited sample times the output fade level over 480 leaves in
bits 31 to 8 of its slot, exactly where it is a 24-bit sample. Then its output fade moves, by 2 in a CUT and by 1 in a
start or stop fade, its swap fade level by 1, its SLEW step's progress, its gain along the ramp, its flush counter and
its write position. Every slot leaves its low byte zero, and slots from c on are zero (R12, R15, R20, R32, R33, R36,
R39, R43, R52, R56, R59, R65, R69, R82, R83, R106, R107, R109, R116, R117, R121, R123). The tick and the position in the
block, and what a commanded output sample does, are log 11; that a level is applied before it moves is log 13; the free
values of the filters, the multiplier and the rounding are log 3 to 6, the limiter's cap log 12, and exact samples log
20. -/
def Obligations.OutputSampleMovesPrograms : Prop :=
  (∀ x : Sample, slotWord ((x.toInt : Rat) / 8388608) = x ++ (0 : BitVec 8)) ∧
  ∀ s : State, s.inReset = false → ∃ t, exec .outputSample s = .next t ∧ t.tick = 0 ∧
    t.sampleInBlock = min (s.sampleInBlock + 1) 4800 ∧ t.blockCounter = s.blockCounter ∧
    t.monitor.timer = s.monitor.timer.map (fun n => max n (min (n + (512 - s.tick)) 2048)) ∧
    (∀ f, let q := (s.feed f).port
      (t.feed f).port =
        { q with
          lossTimer := q.lossTimer.map (fun n => max n (min (n + (512 - s.tick)) q.lossTimeout))
          spanCounter := if q.spanOpen then min (q.spanCounter + (512 - s.tick)) 65535 else q.spanCounter
          overflowMark := q.overflowMark || (q.spanOpen && 65535 < q.spanCounter + (512 - s.tick)) }) ∧
    (∀ f, (t.feed f).conv = (s.feed f).conv.advance.1 ∧
      t.feedCond f .srcSlip = (s.feedCond f .srcSlip || (s.feed f).conv.advance.2) ∧
      ((s.feed f).conv.state = .idle ∨ (s.feed f).conv.state = .search → (t.feed f).conv.delivered = (0, 0))) ∧
    (∀ p, (s.prog p).active = false → t.prog p = s.prog p ∧ ∀ k : Fin 8, (t.ports[p.val])[k.val] = 0) ∧
    (∀ p, (s.prog p).active = true →
      (t.prog p).state = (s.prog p).state ∧ (t.prog p).stack = (s.prog p).stack ∧
      (EntryLaw s → (t.prog p).swap =
        { (s.prog p).swap with
          level := match (s.prog p).swap.phase with
            | .none => (s.prog p).swap.level
            | .fadeOut => (s.prog p).swap.level - 1
            | .fadeIn => min ((s.prog p).swap.level + 1) 480 }) ∧
      (t.prog p).delay.flushCounter = min ((s.prog p).delay.flushCounter + 1) ((s.prog p).delay.reserve * 1024) ∧
      ((s.prog p).delay.writePos < (s.prog p).delay.reserve * 1024 →
        (t.prog p).delay.writePos = ((s.prog p).delay.writePos + 1) % ((s.prog p).delay.reserve * 1024)) ∧
      (t.prog p).delay.dcur = (s.prog p).delay.dcur ∧ (t.prog p).delay.op = (s.prog p).delay.op ∧
      (t.prog p).delay.progress =
        (if (s.prog p).delay.op = .slew then
          min ((s.prog p).delay.progress + 1) (s.prog p).delay.stepInterval.samples
        else (s.prog p).delay.progress) ∧
      (t.prog p).outLevel =
        (match (s.prog p).delay.op, (s.prog p).outDir with
          | .cutOut, _ => (s.prog p).outLevel - 2
          | .cutIn, _ => min ((s.prog p).outLevel + 2) 480
          | _, .none => (s.prog p).outLevel
          | _, .fadeOut => (s.prog p).outLevel - 1
          | _, .fadeIn => min ((s.prog p).outLevel + 1) 480) ∧
      (t.prog p).loud.rampLeft = (s.prog p).loud.rampLeft - 1 ∧
      (t.prog p).loud.rampTarget = (s.prog p).loud.rampTarget ∧
      ((s.prog p).loud.rampLeft = 0 → (t.prog p).loud.presentGain = (s.prog p).loud.presentGain) ∧
      ((s.prog p).loud.rampLeft ≠ 0 → (t.prog p).loud.presentGain = (s.prog p).loud.presentGain +
        ((s.prog p).loud.rampTarget - (s.prog p).loud.presentGain) / ((s.prog p).loud.rampLeft : Rat)) ∧
      (t.prog p).loud.heldDown =
        (if (t.prog p).loud.limiterGain < 1 then min ((s.prog p).loud.heldDown + 1) 4800
        else (s.prog p).loud.heldDown) ∧
      (∀ k : Fin 8, (s.prog p).slots ≤ k.val → (t.ports[p.val])[k.val] = 0) ∧
      (StoreLaw s → PoolLaw s → StackLaw s → DelayLaw s →
        let g := s.prog p
        let d := { g.delay with
          flushCounter := (t.prog p).delay.flushCounter, progress := (t.prog p).delay.progress }
        let tapped := (List.range g.slots).map fun k => d.readSlot t.store k ((trims s g).getD k 0)
        let limited := (g.loud.tap tapped).ramp.limit (tapped.map (· * linear g.loud.presentGain))
        (∀ k x, g.currentSet[k]? = some x → t.store.read (g.delay.address k g.delay.writePos) =
          (match x.chan with
            | .a => (t.feed x.feed).conv.delivered.1
            | .b => (t.feed x.feed).conv.delivered.2) * ((g.swap.level : Rat) / 480)) ∧
        (t.prog p).loud.accumulators = List.zipWith (fun a w => a + w ^ 2) g.loud.accumulators
          (List.zipWith (fun mem y => (weighOne mem y).2) g.loud.weighting tapped) ∧
        (t.prog p).loud = limited.1 ∧
        ∀ k : Fin 8, k.val < g.slots → (t.ports[p.val])[k.val] =
          slotWord (limited.2.getD k.val 0 * ((g.outLevel : Rat) / 480)))) ∧
    ∀ (p : ProgId) (k : Fin 8), ((t.ports[p.val])[k.val]).extractLsb' 0 8 = 0

/-! ## Failover -/

/-- SOURCE_SELECT on a RUNNING program with no swap in flight: of another defined rank it begins a select swap from the
present level; of the current rank it leaves that rank alone on the stack with its mark cleared, and starts no swap
where NO_SOURCE stands as its law says. It is refused with WRONG_STATE unless the program is RUNNING and the rank
defined, and with BUSY while a swap is in flight (R78). That an absent rank is refused with WRONG_STATE while a swap is
in flight too is the model's choice (log 35). -/
def Obligations.SourceSelectTakenOrRefused : Prop :=
  ∀ (s : State) (m : Msg) (p : ProgId) (r : Rank), Commands s m →
    m.body = [BitVec.ofNat 8 p.val, BitVec.ofNat 8 r.val] →
    ((s.prog p).state = .running → ((s.prog p).setAt r).isSome = true → (s.prog p).swap.phase = .none →
      (s.prog p).currentRank ≠ some r → exec (.sourceSelect m) s =
        .next (replying .sourceSelect [0, BitVec.ofNat 8 r.val] (s.setProg p
          { s.prog p with
            swap := { (s.prog p).swap with
              phase := .fadeOut, cause := some .select, origin := (s.prog p).currentRank, selected := some r }
            returnFell := false }))) ∧
    ((s.prog p).state = .running → ((s.prog p).setAt r).isSome = true → (s.prog p).swap.phase = .none →
      (s.prog p).currentRank = some r → ∃ t, exec (.sourceSelect m) s = .next t ∧ (t.prog p).stack = [r] ∧
        (t.prog p).markAt r = false ∧ (t.prog p).returnTimer = 0 ∧ (t.prog p).delay = (s.prog p).delay ∧
        (SourceLaw s → (t.prog p).swap = (s.prog p).swap) ∧
        t.reply = some (replyFrame s.unitAddr 0x13 [0, BitVec.ofNat 8 r.val]) ∧ OtherProgsKept p s t ∧
        t.feeds = s.feeds ∧ t.store = s.store) ∧
    ((s.prog p).state ≠ .running ∨ (s.prog p).setAt r = none →
      exec (.sourceSelect m) s = .next (replying .sourceSelect [0x11] s)) ∧
    ((s.prog p).state = .running → ((s.prog p).setAt r).isSome = true → (s.prog p).swap.phase ≠ .none →
      exec (.sourceSelect m) s = .next (replying .sourceSelect [0x10] s))

/-- FAILOVER_CONFIG stores its three settings, the hold clamped to 10 to 6,000, in every state but UNDEFINED;
auto-return off zeroes the return timer (R79). -/
def Obligations.FailoverConfigStores : Prop :=
  ∀ (s : State) (m : Msg) (p : ProgId) (auto reset : Bool) (n : Nat), Commands s m → n < 65536 →
    m.body = [BitVec.ofNat 8 p.val, BitVec.ofNat 8 auto.toNat] ++ byte2 n ++ [BitVec.ofNat 8 reset.toNat] →
    let hold := min (max n 10) 6000
    ((s.prog p).state ≠ .undefined → exec (.failoverConfig m) s =
      .next (replying .failoverConfig
        ([if n = hold then 0 else 1, BitVec.ofNat 8 auto.toNat] ++ byte2 hold ++ [BitVec.ofNat 8 reset.toNat])
        (s.setProg p
          { s.prog p with
            autoReturn := auto, returnHold := hold, resetOnSwap := reset
            returnTimer := if auto then (s.prog p).returnTimer else 0
            returnFell := if auto then (s.prog p).returnFell else false }))) ∧
    ((s.prog p).state = .undefined → exec (.failoverConfig m) s = .next (replying .failoverConfig [0x11] s))

/-- The SWITCH. Of a failover swap, of a return swap whose return set is not eligible, and of a select swap whose
selected set is not healthy: with the current set eligible, or with no set eligible, the stack is kept, no notice is
queued, and FADE_IN begins; otherwise the stack ends at the lowest eligible rank, cut back to it where it is on the
stack and with it pushed where it is not (R66, R67, R69). A return swap else pops the stack, and a select swap reduces
it to the selected rank, its mark cleared first (R67). Every change of the current set moves the delay, empties the
window where reset-on-swap is on, zeroes the return timer, judges ON_BACKUP and NO_SOURCE, and queues SOURCE_CHANGED
from the origin rank with the cause (R68, R76, R77, R118, R122, R124, R125). That no notice is queued is said of states
where NO_SOURCE stands as its law says. -/
def Obligations.SwitchChoosesSet : Prop :=
  ∀ (s : State) (p : ProgId), s.inReset = false → (s.prog p).state = .running → (s.prog p).swap.phase = .fadeOut →
    (s.prog p).swap.level = 0 →
    let fallsBack :=
      (s.prog p).swap.cause = some .return ∧ returnEligible s (s.prog p) = false ∨
        (s.prog p).swap.cause = some .select ∧
          ∃ r, (s.prog p).swap.selected = some r ∧ rankHealthy s (s.prog p) r = false
    let cause := if (s.prog p).swap.cause = some .silence then SwapCause.silence else .failover
    ((s.prog p).swap.cause = some .failover ∨ (s.prog p).swap.cause = some .silence ∨ fallsBack →
      ∃ t, exec (.swapSwitch p) s = .next t ∧ (t.prog p).swap.phase = .fadeIn ∧ (t.prog p).swap.level = 0 ∧
        (t.prog p).swap.cause = some cause ∧ (t.prog p).state = .running ∧ OtherProgsKept p s t ∧
        t.feeds = s.feeds ∧ t.store = s.store ∧
        (∀ r, (s.prog p).swap.cause = some .select → (s.prog p).swap.selected = some r →
          (t.prog p).markAt r = false) ∧
        (currentEligible s (s.prog p) = true ∨ (∀ r, eligible s (s.prog p) r = false) →
          (t.prog p).stack = (s.prog p).stack ∧ (t.prog p).delay = (s.prog p).delay ∧
          (t.progCond p .noSource = true ↔ currentEligible s (s.prog p) = false) ∧
          (SourceLaw s → t.notices = s.notices ∧ t.missed = s.missed)) ∧
        (∀ r, currentEligible s (s.prog p) = false → eligible s (s.prog p) r = true →
          (∀ r' < r, eligible s (s.prog p) r' = false) →
          SetChanged p r cause s t ∧
          (r ∉ (s.prog p).stack → (t.prog p).stack = (s.prog p).stack ++ [r]) ∧
          (r ∈ (s.prog p).stack → ∃ above, (t.prog p).stack ++ above = (s.prog p).stack))) ∧
    (∀ r, (s.prog p).swap.cause = some .return → (s.prog p).stack.dropLast.getLast? = some r →
      eligible s (s.prog p) r = true →
      ∃ t, exec (.swapSwitch p) s = .next t ∧ (t.prog p).stack = (s.prog p).stack.dropLast ∧
        (t.prog p).swap.phase = .fadeIn ∧ SetChanged p r .return s t ∧ OtherProgsKept p s t ∧
        t.feeds = s.feeds ∧ t.store = s.store) ∧
    (∀ r, (s.prog p).swap.cause = some .select → (s.prog p).swap.selected = some r →
      rankHealthy s (s.prog p) r = true →
      ∃ t, exec (.swapSwitch p) s = .next t ∧ (t.prog p).stack = [r] ∧ (t.prog p).markAt r = false ∧
        (t.prog p).swap.phase = .fadeIn ∧ SetChanged p r .select s t ∧ OtherProgsKept p s t ∧
        t.feeds = s.feeds ∧ t.store = s.store)

/-- The end of a swap at level 480 clears its record; a return that has fallen due then begins, and so does one that
falls due with no swap in flight, from the present level and with the return timer at 0 (R69, R74; the mark that it has
fallen due is log 9). At a block close the return timer of a program that makes returns rises by 1 to at most 6,000
where its return set is eligible, and becomes 0 where it is not; where it comes to the hold with no swap in flight the
return begins at that close, or is left to RETURN_DUE (R73, R74; the order's operand is log 23). -/
def Obligations.SwapEndAndReturn : Prop :=
  (∀ (s : State) (o : CloseOrder) (p : ProgId), s.inReset = false → NoHandover s → (s.prog p).state = .running →
    (s.prog p).autoReturn = true → 2 ≤ (s.prog p).stack.length →
    ∃ t, exec (.blockClose o) s = .next t ∧
      let n := min ((s.prog p).returnTimer + 1) 6000
      (returnEligible s (s.prog p) = false → (t.prog p).returnTimer = 0 ∧ (t.prog p).swap = (s.prog p).swap) ∧
      (returnEligible s (s.prog p) = true →
        (n < (s.prog p).returnHold ∨ (s.prog p).swap.phase ≠ .none →
          (t.prog p).returnTimer = n ∧ (t.prog p).swap = (s.prog p).swap) ∧
        ((s.prog p).returnHold ≤ n → (s.prog p).swap.phase = .none → o.returnsApart = true →
          (t.prog p).returnTimer = n ∧ (t.prog p).swap = (s.prog p).swap ∧ (t.prog p).returnFell = true) ∧
        ((s.prog p).returnHold ≤ n → (s.prog p).swap.phase = .none → o.returnsApart = false →
          (t.prog p).returnTimer = 0 ∧ (t.prog p).swap =
            { phase := .fadeOut, level := (s.prog p).swap.level, cause := some .return
              origin := (s.prog p).currentRank }))) ∧
  ∀ (s : State) (p : ProgId), s.inReset = false → (s.prog p).state = .running →
    ((s.prog p).swap.phase = .fadeIn → (s.prog p).swap.level = 480 →
      ((s.prog p).autoReturn = false ∨ (s.prog p).stack.length < 2 ∨ (s.prog p).returnTimer < (s.prog p).returnHold) →
      exec (.swapEnd p) s = .next (judgePins (s.setProg p { s.prog p with swap := {} }))) ∧
    (((s.prog p).swap.phase = .fadeIn ∧ (s.prog p).swap.level = 480 → (s.prog p).autoReturn = true →
      2 ≤ (s.prog p).stack.length → (s.prog p).returnHold ≤ (s.prog p).returnTimer →
      exec (.swapEnd p) s = .next (judgePins (s.setProg p
        { s.prog p with
          swap := { phase := .fadeOut, level := 480, cause := some .return, origin := (s.prog p).currentRank }
          returnTimer := 0, returnFell := false })))) ∧
    ((s.prog p).swap.phase = .none → (s.prog p).returnFell = true → (s.prog p).autoReturn = true →
      2 ≤ (s.prog p).stack.length →
      exec (.returnDue p) s = .next (judgePins (s.setProg p
        { s.prog p with
          swap := { (s.prog p).swap with
            phase := .fadeOut, cause := some .return, origin := (s.prog p).currentRank, selected := none }
          returnTimer := 0, returnFell := false })))

/-- The silence timer acts at the close of a measured block with no swap in flight: M at or above the threshold, or a
silence time of 0, reloads it and makes SILENCE false; below the threshold it counts down, and the close that brings it
to 0 makes SILENCE true, with the timer as the settings made active at that close leave it. A swap in flight holds it
(R93, R94). With the entry's action NONE the row SILENCE_TIMEOUT touches no program and no feed. With action FAILOVER
and raise delay 0, SILENCE becoming true on a RUNNING program with no swap in flight marks its current rank and begins
a swap of cause SILENCE from the present level; where no set of it is eligible and NO_SOURCE is already true, the mark
is set and no swap begins (R71, R137). That the row acts on a timer left at 0 with SILENCE false, as no close leaves it,
is log 36, and the order of a close log 23. -/
def Obligations.SilenceTimeoutActs : Prop :=
  (∀ (s : State) (o : CloseOrder) (p : ProgId), s.inReset = false → Measured (s.prog p) →
    let a := (s.prog p).loud.pending
    let was := (s.prog p).loud.active.silenceTime
    let timer := if a.silenceTime = was then (s.prog p).loud.silenceTimer
      else if a.silenceTime = 0 ∨ was = 0 then a.silenceTime
      else min (s.prog p).loud.silenceTimer a.silenceTime
    let M := mean (lastN 4 ((s.prog p).loud.history ++
      [blockLevel (blockPower (s.prog p).weights (s.prog p).loud.accumulators)]))
    ∃ t, exec (.blockClose o) s = .next t ∧
      ((s.prog p).swap.phase ≠ .none → (t.prog p).loud.silenceTimer = timer ∧
        (a.silenceTime ≠ 0 → t.progCond p .silence = s.progCond p .silence)) ∧
      ((s.prog p).swap.phase = .none → LoudnessFirst o →
        (a.silenceTime = 0 ∨ a.silenceThreshold ≤ M →
          (t.prog p).loud.silenceTimer = a.silenceTime ∧ t.progCond p .silence = false) ∧
        (a.silenceTime ≠ 0 → M < a.silenceThreshold → (t.prog p).loud.silenceTimer = timer - 1 ∧
          (timer ≤ 1 → t.progCond p .silence = true) ∧
          (2 ≤ timer → t.progCond p .silence = s.progCond p .silence)))) ∧
  ∀ (s : State) (p : ProgId), s.inReset = false → (s.prog p).active = true → (s.prog p).swap.phase = .none →
    (s.prog p).loud.silenceTimer = 0 → (s.prog p).loud.active.silenceTime ≠ 0 → s.progCond p .silence = false →
    ∃ t, exec (.silenceTimeout p) s = .next t ∧ t = judgePins (setProgCond p .silence true s) ∧
      t.progCond p .silence = true ∧
      (t.prog p).loud = (s.prog p).loud ∧ (t.prog p).delay = (s.prog p).delay ∧
      (t.prog p).stack = (s.prog p).stack ∧ OtherProgsKept p s t ∧ t.feeds = s.feeds ∧ t.store = s.store ∧
      ((s.entry (progEntry p .silence)).config.action = .none → t.progs = s.progs) ∧
      ((s.entry (progEntry p .silence)).config.action = .failover →
        (s.entry (progEntry p .silence)).config.raiseDelay = 0 → (s.entry (progEntry p .silence)).state = .clear →
        (s.prog p).state = .running →
        ∀ r, (s.prog p).currentRank = some r →
          (t.prog p).markAt r = true ∧
          (s.progCond p .noSource = false → (t.prog p).swap =
            { phase := .fadeOut, level := (s.prog p).swap.level, cause := some .silence, origin := some r }) ∧
          (s.progCond p .noSource = true → (∀ r', eligible s (s.prog p) r' = false) →
            (t.prog p).swap = (s.prog p).swap))

/-! ## Loudness -/

/-- LOUD_CONFIG writes the pending copy alone, each level and time clamped to its range, ADJUSTED where a clamp was made
(R99). LOUD_RESTART empties the window and the history and reloads the silence timer with SILENCE false; gain, limiter,
settings, accumulators and the incomplete mark are kept (R96). Both are refused with WRONG_STATE in UNDEFINED. -/
def Obligations.LoudConfigAndRestart : Prop :=
  ∀ (s : State) (m : Msg) (p : ProgId), Commands s m →
    (∀ (mode : LoudMode) (vals : List (BitVec 16)) (link : Nat), vals.length = 11 → link ≤ 4 →
      m.body = [BitVec.ofNat 8 p.val, BitVec.ofNat 8 mode.code] ++ vals.flatMap (fun v => byte2 v.toNat) ++
        [BitVec.ofNat 8 link] →
      let clamped := List.zipWith (fun (r : Int × Int) v => max r.1 (min r.2 v))
        [(-400, -100), (0, 300), (0, 200), (1, 50), (1, 100), (0, 100), (10, 300), (-100, 0), (-300, 120),
          (-900, -300), (0, 600)] (vals.map (·.toInt))
      ((s.prog p).state ≠ .undefined → ∃ set : LoudSettings,
        exec (.loudConfig m) s = .next (replying .loudConfig
          ((if vals.map (·.toInt) = clamped then 0 else 1) :: set.fields)
          (s.setProg p { s.prog p with loud := { (s.prog p).loud with pending := set } })) ∧
        set.InRange ∧ set.mode = mode ∧ set.link = link ∧
        [set.target, set.cutMax, set.boostMax, set.rise, set.fall, (set.holdOff : Int), (set.window : Int), set.ceiling,
          set.overThreshold, set.silenceThreshold, (set.silenceTime : Int)] = clamped) ∧
      ((s.prog p).state = .undefined → exec (.loudConfig m) s = .next (replying .loudConfig [0x11] s))) ∧
    (m.body = [BitVec.ofNat 8 p.val] →
      ((s.prog p).state ≠ .undefined → ∃ t, exec (.loudRestart m) s = .next t ∧ t.progCond p .silence = false ∧
        t.prog p =
          { s.prog p with
            loud := { (s.prog p).loud with
              window := [], history := [], silenceTimer := (s.prog p).loud.active.silenceTime } } ∧
        OtherProgsKept p s t ∧ t.feeds = s.feeds ∧ t.reply = some (replyFrame s.unitAddr 0x1A [0]) ∧
        t.store = s.store) ∧
      ((s.prog p).state = .undefined → exec (.loudRestart m) s = .next (replying .loudRestart [0x11] s)))

/-- When the gain law does not hold, G moves toward C by at most one slew step: to the smaller of C and G + rise where C
is greater, to the larger of C and G − fall where it is less, and not at all where it is equal; so it stays within
bounds that hold both G and C (R102). In CORRECT, at an admitted block whose window is long enough, the gain law is
that step toward C, the target less I clamped to the active bounds; at a block that is not admitted, and with a
window that is too short, it holds G (R101). A block close, whatever its order, runs the law on G brought within the
bounds made active at it, with that close's verdict and window; then every program's A is the least G among the members
of its link group, or its own G where it is no member, and a program that runs or stops ramps to it over the next 4,800
output samples (R100, R101, R104, R106; the commanded close is log 11 and its order log 23). -/
def Obligations.GainMovesOneSlewStep : Prop :=
  (∀ (a : LoudSettings) (g c : Int), 0 ≤ a.rise → 0 ≤ a.fall →
    (g < c → slewGain a g c = min c (g + a.rise)) ∧ (c < g → slewGain a g c = max c (g - a.fall)) ∧
    (g = c → slewGain a g c = g) ∧ slewGain a g c ≤ g + a.rise ∧ g - a.fall ≤ slewGain a g c ∧
    ∀ lo hi, lo ≤ g → g ≤ hi → lo ≤ c → c ≤ hi → lo ≤ slewGain a g c ∧ slewGain a g c ≤ hi) ∧
  (∀ (s : State) (o : CloseOrder), s.inReset = false → ∃ t, exec (.blockClose o) s = .next t ∧ ∀ p,
    let a := (s.prog p).loud.pending
    let bounded := if a.mode = .correct then max (-a.cutMax) (min a.boostMax (s.prog p).loud.ownGain) else 0
    (Measured (s.prog p) → (t.prog p).loud.ownGain =
      gainLaw { (t.prog p).loud with ownGain := bounded } ((t.prog p).loud.lastVerdict == .admitted)) ∧
    (¬Measured (s.prog p) → (t.prog p).loud.ownGain = bounded) ∧
    (isMember (t.prog p) (t.prog p).loud.active.link = false →
      (t.prog p).loud.appliedGain = (t.prog p).loud.ownGain) ∧
    (isMember (t.prog p) (t.prog p).loud.active.link = true →
      (∀ q, isMember (t.prog q) (t.prog p).loud.active.link = true →
        (t.prog p).loud.appliedGain ≤ (t.prog q).loud.ownGain) ∧
      ∃ q, isMember (t.prog q) (t.prog p).loud.active.link = true ∧
        (t.prog p).loud.appliedGain = (t.prog q).loud.ownGain) ∧
    (t.prog p).loud.presentGain = (s.prog p).loud.presentGain ∧
    ((s.prog p).active = true →
      (t.prog p).loud.rampTarget = (t.prog p).loud.appliedGain ∧ (t.prog p).loud.rampLeft = 4800)) ∧
  ∀ l : Loudness, l.active.mode = .correct →
    gainLaw l false = l.ownGain ∧
    (l.window = [] ∨ l.window.length < min l.active.holdOff l.active.window → gainLaw l true = l.ownGain) ∧
    (l.window ≠ [] → min l.active.holdOff l.active.window ≤ l.window.length →
      gainLaw l true = slewGain l.active l.ownGain
        (max (-l.active.cutMax) (min l.active.boostMax (l.active.target - mean l.window))))

/-- B is 100 × log10 of the block power rounded half up, clamped to −900 to +120, and −900 for no power: inside the
clamp it is the integer n with 10^((n − 1/2)/100) at most the power and the next such bound above it (R84; B computed
exactly is log 21). A mean is the integer nearest to the exact mean, a half taken toward positive infinity (00_scope.md
section 5). -/
def Obligations.BlockLevelAndMeanRound : Prop :=
  (∀ P : Rat, -900 ≤ blockLevel P ∧ blockLevel P ≤ 120 ∧ (P ≤ 0 → blockLevel P = -900) ∧
    (0 < P → -900 < blockLevel P → (10 : Rat) ^ (2 * blockLevel P - 1) ≤ P ^ (200 : Nat)) ∧
    (0 < P → blockLevel P < 120 → P ^ (200 : Nat) < (10 : Rat) ^ (2 * blockLevel P + 1))) ∧
  ∀ l : List Int, l ≠ [] → 2 * l.sum - l.length < 2 * l.length * mean l ∧ 2 * l.length * mean l ≤ 2 * l.sum + l.length

/-- A block close advances the counter and starts a new block; every program's pending settings become active; a block
that is measured adds its B to the history and forms M, and one that is not measured leaves the measurement as it was
(R85, R86, R100, R155). A block is admitted to the window only with no swap in flight before the close, by the four
gates; and it is admitted wherever they pass with no swap in flight, where the close does its loudness work first (R87
to R89). CEILING says whether 480 samples or more were held down, OVER_LEVEL whether M and the A formed at this close
are together above the threshold (R109, R110). The commanded close and its order are log 11 and 23; B computed exactly
is log 21. -/
def Obligations.BlockCloseMeasures : Prop :=
  ∀ (s : State) (o : CloseOrder), s.inReset = false →
    ∃ t, exec (.blockClose o) s = .next t ∧ t.blockCounter = s.blockCounter + 1 ∧ t.sampleInBlock = 0 ∧
      t.store = s.store ∧ t.freePages = s.freePages ∧
      (∀ f, (t.feed f).port = (s.feed f).port ∧ (t.feed f).conv = (s.feed f).conv ∧ t.feedCond f .srcSlip = false) ∧
      (∀ p, (t.prog p).loud.active = (s.prog p).loud.pending ∧
        (t.prog p).loud.pending = (s.prog p).loud.pending ∧ (t.prog p).stack = (s.prog p).stack ∧
        (t.prog p).delay = (s.prog p).delay ∧ (t.prog p).state = (s.prog p).state ∧
        (t.prog p).loud.incomplete = ((s.prog p).loud.incomplete && !(s.prog p).active)) ∧
      (∀ p, ¬Measured (s.prog p) →
        (t.prog p).loud.history = (s.prog p).loud.history ∧ (t.prog p).loud.lastM = (s.prog p).loud.lastM ∧
        (t.prog p).loud.lastVerdict = (s.prog p).loud.lastVerdict ∧
        (t.prog p).loud.window = lastN (s.prog p).loud.pending.window (s.prog p).loud.window ∧
        t.progCond p .overLevel = s.progCond p .overLevel) ∧
      (∀ p, (s.prog p).active = true →
        let hit := decide (480 ≤ (s.prog p).loud.heldDown)
        t.progCond p .ceiling = hit ∧ (t.prog p).loud.heldDown = 0 ∧
        (t.prog p).loud.ceilingBlocks =
          if hit then min ((s.prog p).loud.ceilingBlocks + 1) 65535 else (s.prog p).loud.ceilingBlocks) ∧
      (∀ p, Measured (s.prog p) →
        let b := blockLevel (blockPower (s.prog p).weights (s.prog p).loud.accumulators)
        let h := lastN 4 ((s.prog p).loud.history ++ [b])
        let M := mean h
        let kept := lastN (s.prog p).loud.pending.window (s.prog p).loud.window
        let joined := lastN (s.prog p).loud.pending.window (kept ++ [M])
        (t.prog p).loud.lastB = some b ∧ (t.prog p).loud.history = h ∧ (t.prog p).loud.lastM = some M ∧
        ((t.prog p).loud.lastVerdict = .notAdmitted ∧ (t.prog p).loud.window = kept ∨
          (t.prog p).loud.lastVerdict = .admitted ∧ (t.prog p).loud.window = joined ∧
            (s.prog p).swap.phase = .none ∧ -700 ≤ M ∧ (kept = [] ∨ mean kept - 100 ≤ M) ∧
            (s.prog p).loud.pending.mode ≠ .bypass) ∧
        (LoudnessFirst o → (s.prog p).swap.phase = .none → -700 ≤ M → (kept = [] ∨ mean kept - 100 ≤ M) →
          (s.prog p).loud.pending.mode ≠ .bypass →
          (t.prog p).loud.lastVerdict = .admitted ∧ (t.prog p).loud.window = joined) ∧
        (t.progCond p .overLevel = true ↔
          (s.prog p).loud.pending.overThreshold < M + (t.prog p).loud.appliedGain))

/-- In CORRECT and MEASURE no sample leaves the limiter with a magnitude above the active ceiling, its gain stays above
0 and at most 1 and rises by at most 1/4,800. The gain is the least of the release, the lines of the frames in the
lookahead whose requirement is below the present gain, and the requirement of the frame leaving: the last is the model's
reading of R107 where its formula and its claim differ (log 12). Each slot of the frame leaving is multiplied by it, the
new frame joins, and a gain below 1 counts as held down (R107, R109). In BYPASS every frame leaves the lookahead
unchanged, 48 output samples after it entered (R103, R108). The multiplier of a level g in the range of gains and
ceilings is positive and within 2^-32 of 10^(g/200), whose power to the denominator of g/200 is a power of 10; the
precision is log 5 (R106, R107). -/
def Obligations.LimiterHoldsCeiling : Prop :=
  (∀ g : Rat, 0 < linear g ∧ (-400 ≤ g → g ≤ 400 →
    (linear g - 1 / 2 ^ 32) ^ (g / 200).den ≤ (10 : Rat) ^ (g / 200).num ∧
      (10 : Rat) ^ (g / 200).num ≤ (linear g + 1 / 2 ^ 32) ^ (g / 200).den)) ∧
  ∀ (l : Loudness) (zs : List Rat),
    (l.active.mode ≠ .bypass → 0 < l.limiterGain → l.limiterGain ≤ 1 →
      (∀ x ∈ (l.limit zs).2, absRat x ≤ linear l.active.ceiling) ∧
        0 < (l.limit zs).1.limiterGain ∧ (l.limit zs).1.limiterGain ≤ 1 ∧
        (l.limit zs).1.limiterGain ≤ l.limiterGain + 1 / 4800) ∧
    (l.active.mode ≠ .bypass →
      let look := fullLookahead l.lookahead
      let gain := (l.limit zs).1.limiterGain
      let release := min 1 (l.limiterGain + 1 / 4800)
      let needs := requirement l.active.ceiling
      let line (i : Nat) (fr : List Rat) : Rat := l.limiterGain + (needs fr - l.limiterGain) / ((i + 1 : Nat) : Rat)
      gain ≤ release ∧ gain ≤ needs (look.headD []) ∧
        (∀ i fr, look[i]? = some fr → needs fr < l.limiterGain → gain ≤ line i fr) ∧
        (gain = release ∨ gain = needs (look.headD []) ∨
          ∃ i fr, look[i]? = some fr ∧ needs fr < l.limiterGain ∧ gain = line i fr) ∧
        (l.limit zs).2 = (look.headD []).map (· * gain) ∧ (l.limit zs).1.lookahead = look.drop 1 ++ [zs] ∧
        (l.limit zs).1.heldDown = if gain < 1 then min (l.heldDown + 1) 4800 else l.heldDown) ∧
    (∀ fr, let c := linear l.active.ceiling
      (framePeak fr ≤ c → requirement l.active.ceiling fr = 1) ∧
        (c < framePeak fr → requirement l.active.ceiling fr = c / framePeak fr) ∧ ∀ x ∈ fr, absRat x ≤ framePeak fr) ∧
    (l.active.mode = .bypass → l.lookahead.length = 48 →
      (l.limit zs).2 = l.lookahead.headD [] ∧ (l.limit zs).1.limiterGain = 1 ∧
        (l.limit zs).1.lookahead = l.lookahead.drop 1 ++ [zs] ∧ (l.limit zs).1.heldDown = l.heldDown)

/-! ## Delay -/

/-- DELAY_RESERVE on a DEFINED program: with the pages in the room, its chain joins the tail of the free list, c × P
pages are taken from the head in order, and the rings are flushed; a requirement above the room is refused with NO_ROOM
and changes nothing, and so is one in any state but DEFINED, with WRONG_STATE (R115). -/
def Obligations.DelayReserveRebuildsChain : Prop :=
  ∀ (s : State) (m : Msg) (p : ProgId) (b : Byte), Commands s m → m.body = [BitVec.ofNat 8 p.val, b] →
    let P := min b.toNat 94
    let need := (s.prog p).slots * P
    let pool := s.freePages ++ (s.prog p).delay.chain
    ((s.prog p).state ≠ .defined → exec (.delayReserve m) s = .next (replying .delayReserve [0x11] s)) ∧
    ((s.prog p).state = .defined → need ≤ pool.length → exec (.delayReserve m) s =
      .next (replying .delayReserve
        ([if b.toNat ≤ 94 then 0 else 1, BitVec.ofNat 8 P] ++ byte2 need ++ byte2 (pool.length - need))
        { s.setProg p
            { s.prog p with
              delay := { (s.prog p).delay with
                reserve := P, chain := pool.take need, writePos := 0, flushCounter := 0 } }
          with freePages := pool.drop need })) ∧
    ((s.prog p).state = .defined → pool.length < need →
      exec (.delayReserve m) s = .next (replying .delayReserve [0x12] s))

/-- DELAY_TARGET stores its three settings, Ltgt clamped to 96,000 and the slew limit to 4,800: on a DEFINED program
nothing more is done, and on one that runs or stops Dtgt becomes the clamped wanted delay of the new settings (R118,
R120). On a RUNNING program a Dtgt that moved is a re-target: with no operation in flight it begins none at distance 0,
a SLEW up to the new slew limit and a CUT above it; a SLEW goes on within the limit and is abandoned for a CUT above it;
CUT_OUT and CUT_IN go on. A STOPPING program begins no operation (R122, R124). The reply carries the three stored
settings, Dtgt and the two latency conditions, ADJUSTED where a clamp was made; in UNDEFINED it is WRONG_STATE alone and
nothing changes (R120, R162). -/
def Obligations.DelayTargetStores : Prop :=
  ∀ (s : State) (m : Msg) (p : ProgId) (lt sl : Nat) (n : StepInterval), Commands s m → lt < 2 ^ 32 → sl < 2 ^ 16 →
    m.body = [BitVec.ofNat 8 p.val] ++ byte4 lt ++ byte2 sl ++ [BitVec.ofNat 8 n.code] →
    let d : DelayRec := { (s.prog p).delay with ltgt := min lt 96000, slewLimit := min sl 4800, interval := n }
    let reply (dtgt : Nat) (low high : Bool) : List Byte :=
      [if lt ≤ 96000 ∧ sl ≤ 4800 then 0 else 1] ++ byte4 (min lt 96000) ++ byte2 (min sl 4800) ++
        [BitVec.ofNat 8 n.code] ++ byte4 dtgt ++ [BitVec.ofNat 8 (low.toNat + 2 * high.toNat)]
    ((s.prog p).state = .undefined → exec (.delayTarget m) s = .next (replying .delayTarget [0x11] s)) ∧
    ((s.prog p).state = .defined → exec (.delayTarget m) s = .next (replying .delayTarget
      (reply (s.prog p).delay.dtgt (s.progCond p .latencyUnder) (s.progCond p .latencyOver))
      (s.setProg p { s.prog p with delay := d }))) ∧
    ((s.prog p).active = true → ∃ t, exec (.delayTarget m) s = .next t ∧
      (t.prog p).delay.ltgt = min lt 96000 ∧ (t.prog p).delay.slewLimit = min sl 4800 ∧
      (t.prog p).delay.interval = n ∧ (t.prog p).delay.dtgt = delayTargetOf s { s.prog p with delay := d } ∧
      DelayFollows (ringBound s { s.prog p with delay := d }) { s.prog p with delay := d } (t.prog p) ∧
      (t.progCond p .latencyUnder = true ↔ wantedDelay s { s.prog p with delay := d } < 0) ∧
      (t.progCond p .latencyOver = true ↔
        ringBound s { s.prog p with delay := d } < wantedDelay s { s.prog p with delay := d }) ∧
      t.reply = some (replyFrame s.unitAddr 0x1D
        (reply (t.prog p).delay.dtgt (t.progCond p .latencyUnder) (t.progCond p .latencyOver))) ∧
      (t.prog p).stack = (s.prog p).stack ∧ OtherProgsKept p s t ∧ t.feeds = s.feeds ∧ t.store = s.store ∧
      t.freePages = s.freePages)

/-- The events of a delay operation. A SLEW step that has run its interval moves Dcur by one sample in its direction: at
Dtgt the SLEW settles with a DELAY_SETTLED notice, elsewhere the next step begins at once (R121, R126); a step up ends
no higher than the ring bound (R125; log 29). At the foot of a CUT Dcur takes Dtgt and CUT_IN begins; at its top the CUT
settles where Dcur equals Dtgt, and otherwise a SLEW or a new CUT begins by the slew limit, without a notice (R122 to
R124). -/
def Obligations.DelayOperationEvents : Prop :=
  ∀ (s : State) (p : ProgId), s.inReset = false →
    let g := s.prog p
    let d := g.delay
    let there := if d.dir = .up then min (d.dcur + 1) (ringBound s g).toNat else d.dcur - 1
    (d.op = .slew → d.stepInterval.samples ≤ d.progress → (d.dir = .down → 1 ≤ d.dcur) → there = d.dtgt →
      exec (.slewStepComplete p) s = .next (judgePins
        (pushNotice .delaySettled (.program p) (byte4 there)
          (s.setProg p { g with delay := { d with dcur := there, progress := 0, op := .none } })))) ∧
    (d.op = .slew → d.stepInterval.samples ≤ d.progress → (d.dir = .down → 1 ≤ d.dcur) → there ≠ d.dtgt →
      exec (.slewStepComplete p) s = .next (judgePins (s.setProg p
        { g with
          delay := { d with
            dcur := there, progress := 0, op := .slew, dir := if there < d.dtgt then .up else .down
            stepInterval := d.interval } }))) ∧
    (d.op = .cutOut → g.outLevel = 0 → exec (.cutJump p) s =
      .next (judgePins (s.setProg p { g with delay := { d with dcur := d.dtgt, progress := 0, op := .cutIn } }))) ∧
    (d.op = .cutIn → g.outLevel = 480 → d.dcur = d.dtgt → exec (.cutInEnd p) s = .next (judgePins
      (pushNotice .delaySettled (.program p) (byte4 d.dcur)
        (s.setProg p { g with delay := { d with progress := 0, op := .none } })))) ∧
    (d.op = .cutIn → g.outLevel = 480 → d.dcur ≠ d.dtgt → ((d.dtgt : Int) - d.dcur).natAbs ≤ d.slewLimit →
      exec (.cutInEnd p) s = .next (judgePins (s.setProg p
        { g with
          delay := { d with
            op := .slew, progress := 0, dir := if d.dcur < d.dtgt then .up else .down
            stepInterval := d.interval } }))) ∧
    (d.op = .cutIn → g.outLevel = 480 → d.slewLimit < ((d.dtgt : Int) - d.dcur).natAbs →
      exec (.cutInEnd p) s = .next (judgePins (s.setProg p
        { g with delay := { d with op := .cutOut, progress := 0 }, outDir := .none })))

/-- What a ring returns: a sample written is read at a delay of 0, and what was read at a delay is read one further at
the next output sample, until the ring has gone round; a delay at the flush counter or above reads as zero (R114, R116,
R117). A slot is read at Dcur and its trim, and during a SLEW step by the straight-line blend of that whole delay and
the next one in the step's direction (R117, R121). -/
def Obligations.RingDelaysSamples : Prop :=
  (∀ (d : DelayRec) (m : Memory) (k trim : Nat),
    (∀ back, d.flushCounter ≤ back → d.ringRead m k back = 0) ∧
    (d.op ≠ .slew → d.readSlot m k trim = d.ringRead m k (d.dcur + trim)) ∧
    (d.op = .slew →
      let next := match d.dir with
        | .up => d.dcur + trim + 1
        | .down => d.dcur + trim - 1
      let part : Rat := (d.progress : Rat) / (d.stepInterval.samples : Rat)
      let here := d.ringRead m k (d.dcur + trim)
      d.readSlot m k trim = here + (d.ringRead m k next - here) * part)) ∧
  ∀ (d : DelayRec) (c k back : Nat) (xs ys : List Rat) (m : Memory), m.wf = true → d.chain.Nodup →
    d.chain.length = c * d.reserve → xs.length = c → ys.length = c → k < c → 1 ≤ d.reserve → d.writePos < d.ringSize →
    d.flushCounter ≤ d.ringSize →
    let m' := d.writeSlots 0 xs m
    d.countWritten.ringRead m' k 0 = xs.getD k 0 ∧
      (back + 1 < d.ringSize →
        let d' := d.countWritten.advance
        let m'' := d'.writeSlots 0 ys m'
        d'.countWritten.ringRead m'' k (back + 1) = d.countWritten.ringRead m' k back)

/-- No command but an output sample and the end of a power-on reset writes the Delay Store, and an output sample leaves
every address but the write positions of the programs that run (R43, R116). That a power-on reset clears it is log
26. -/
def Obligations.StoreWrittenOnlyAtWritePositions : Prop :=
  ∀ (c : Instr) (s t : State), exec c s = .next t → (s.store.wf = true → t.store.wf = true) ∧
    (c ≠ .outputSample → (∀ u b, c ≠ .powerOnReset u b) → t.store = s.store) ∧
    (c = .outputSample → s.store.wf = true → ∀ a,
      (∀ p, (s.prog p).active = true → ∀ k < (s.prog p).currentSet.length,
        a ≠ (s.prog p).delay.address k (s.prog p).delay.writePos) →
      t.store.read a = s.store.read a)

/-! ## Alarms -/

/-- ALARM_CONFIG stores the four fields, the delays clamped to 255; severity OFF unlatches the entry; action FAILOVER is
refused with BAD_VALUE where it is not legal (R139, R140, R143). -/
def Obligations.AlarmConfigStores : Prop :=
  ∀ (s : State) (m : Msg) (e : EntryId) (sev : Severity) (up down : Nat) (act : Action), Commands s m →
    up < 65536 → down < 65536 →
    m.body = [BitVec.ofNat 8 e.val, BitVec.ofNat 8 sev.code] ++ byte2 up ++ byte2 down ++ [BitVec.ofNat 8 act.code] →
    (act = .none ∨ failoverLegal e = true → ∃ t, exec (.alarmConfig m) s = .next t ∧
      (t.entry e).config = ⟨sev, min up 255, min down 255, act⟩ ∧
      (t.entry e).latched = (if sev = .off then false else (s.entry e).latched) ∧
      (t.entry e).acknowledged = (s.entry e).acknowledged ∧ (t.entry e).raiseCount = (s.entry e).raiseCount ∧
      (∀ d, d ≠ e → (t.entry d).config = (s.entry d).config) ∧
      t.reply = some (replyFrame s.unitAddr 0x20
        ([if up ≤ 255 ∧ down ≤ 255 then 0 else 1, BitVec.ofNat 8 sev.code] ++ byte2 (min up 255) ++
          byte2 (min down 255) ++ [BitVec.ofNat 8 act.code])) ∧ RunsKept s t ∧ t.store = s.store ∧
      ∀ f, (t.feed f).port = (s.feed f).port ∧ (t.feed f).conv = (s.feed f).conv) ∧
    (act = .failover → failoverLegal e = false →
      exec (.alarmConfig m) s = .next (replying .alarmConfig [0x23] s))

/-- An ALARM_CONFIG does not change a timer already running: the entry it names keeps its state and its timer. The new
delay is used for the next timer started: an entry in CLEAR whose condition becomes true rises with the raise delay then
configured, and one in ACTIVE whose condition becomes false falls with the clear delay then configured (R136). -/
def Obligations.ConfigLeavesRunningTimer : Prop :=
  (∀ (s : State) (m : Msg) (e : EntryId) (sev : Severity) (up down : Nat) (act : Action), Commands s m →
    up < 65536 → down < 65536 → (act = .none ∨ failoverLegal e = true) →
    m.body = [BitVec.ofNat 8 e.val, BitVec.ofNat 8 sev.code] ++ byte2 up ++ byte2 down ++ [BitVec.ofNat 8 act.code] →
    ∃ t, exec (.alarmConfig m) s = .next t ∧ (t.entry e).config.raiseDelay = min up 255 ∧
      (t.entry e).config.clearDelay = min down 255 ∧ (t.entry e).state = (s.entry e).state ∧
      (t.entry e).timer = (s.entry e).timer) ∧
  ∀ (s : State) (e : EntryId),
    ((s.entry e).state = .clear → (s.entry e).config.raiseDelay ≠ 0 → s.cond e = false →
      ((setCond e true s).entry e).state = .rising ∧
        ((setCond e true s).entry e).timer = (s.entry e).config.raiseDelay) ∧
    ((s.entry e).state = .active → (s.entry e).config.clearDelay ≠ 0 → s.cond e = true →
      ((setCond e false s).entry e).state = .falling ∧
        ((setCond e false s).entry e).timer = (s.entry e).config.clearDelay)

/-- ALARM_ACK acknowledges the entry named, or every entry for 0xFF, and unlatches those in CLEAR; the reply counts
those that were latched and not acknowledged, and no state, timer, count or action changes (R141). -/
def Obligations.AlarmAckAcknowledges : Prop :=
  ∀ (s : State) (m : Msg), Commands s m →
    (∀ e : EntryId, m.body = [BitVec.ofNat 8 e.val] → exec (.alarmAck m) s =
      .next (replying .alarmAck
        [0, BitVec.ofNat 8 e.val, if (s.entry e).latched && !(s.entry e).acknowledged then 1 else 0]
        (s.setEntry e
          { s.entry e with
            acknowledged := true, latched := (s.entry e).latched && (s.entry e).state != .clear }))) ∧
    (m.body = [0xFF] → ∃ t, exec (.alarmAck m) s = .next t ∧
      (∀ e, t.entry e =
        { s.entry e with acknowledged := true, latched := (s.entry e).latched && (s.entry e).state != .clear }) ∧
      t.reply = some (replyFrame s.unitAddr 0x22
        [0, 0xFF, BitVec.ofNat 8
          (allEntries.filter fun e => (s.entry e).latched && !(s.entry e).acknowledged).length]) ∧
      t.feeds = s.feeds ∧ t.progs = s.progs ∧ t.conds = s.conds ∧ t.notices = s.notices ∧ t.store = s.store)

/-- An entry in RISING whose timer has run out is raised: ACTIVE, counted, stamped, and unless OFF latched and not
acknowledged, with ALARM_RAISED queued. An entry in FALLING whose timer has run out enters CLEAR, unlatched where it is
acknowledged, with ALARM_CLEARED queued unless OFF (R135, R137, R138). A block close counts the timer of an entry in
RISING or FALLING, and an entry whose timer comes to 0 at it is raised or enters CLEAR there, stamped with the counter
just advanced, or is left to its expiry (R135; the commanded close is log 11 and its order's operand log 23). With a
delay of 0 the change of the condition does the same at once (R134). The raise of a feed entry with action FAILOVER
makes a healthy feed unhealthy: every RUNNING program whose current set names it begins a failover swap, from the
present level and with the current rank as origin, but in FADE_OUT, and but where NO_SOURCE was already true; no other
swap changes (R62, R70). The release of the last such entry makes an enabled feed healthy, and a RUNNING program whose
NO_SOURCE that ends, its current set still not eligible, begins a failover swap (R62, R76). Either is an eligibility
event of the programs whose sets name the feed (R63, R73). -/
def Obligations.AlarmTimersExpire : Prop :=
  (∀ (s : State) (e : EntryId), s.inReset = false → (s.entry e).timer = 0 →
    let x := s.entry e
    let detail (n : Nat) := [BitVec.ofNat 8 e.val, BitVec.ofNat 8 x.config.severity.code, BitVec.ofNat 8 n]
    (x.state = .rising →
      ∃ t, exec (.alarmRaiseDelayExpiry e) s = .next t ∧
        (t.entry e).state = .active ∧ (t.entry e).timer = 0 ∧
        (t.entry e).raiseCount = min (x.raiseCount + 1) 255 ∧ (t.entry e).stamp = s.blockCounter ∧
        (x.config.severity ≠ .off → (t.entry e).latched = true ∧ (t.entry e).acknowledged = false ∧
          Reported .alarmRaised (entrySource e) (detail (min (x.raiseCount + 1) 255)) s t) ∧
        (x.config.severity = .off → (t.entry e).latched = x.latched ∧
          (x.config.action = .none → t.notices = s.notices ∧ t.missed = s.missed)) ∧
        (∀ k, (∀ p, k ≠ progEntry p .noSource) → t.cond k = s.cond k) ∧ t.store = s.store ∧ RunsKept s t ∧
        (∀ f, (t.feed f).port = (s.feed f).port ∧ (t.feed f).conv = (s.feed f).conv) ∧
        (x.config.action = .none → t.feeds = s.feeds ∧ t.progs = s.progs ∧ OtherEntriesKept e s t) ∧
        (∀ f k, e = feedEntry f k → x.config.action = .failover →
          HealthLost f s t ∧ OtherFeedsKept f s t ∧ ((s.feed f).healthy = false → t.progs = s.progs))) ∧
    (x.state = .falling →
      ∃ t, exec (.alarmClearDelayExpiry e) s = .next t ∧
        (t.entry e).state = .clear ∧ (t.entry e).timer = 0 ∧
        (t.entry e).latched = (x.latched && !x.acknowledged) ∧ (t.entry e).raiseCount = x.raiseCount ∧
        (x.config.severity ≠ .off → Reported .alarmCleared (entrySource e) (detail x.raiseCount) s t) ∧
        (x.config.severity = .off → x.config.action = .none → t.notices = s.notices ∧ t.missed = s.missed) ∧
        (∀ k, (∀ p, k ≠ progEntry p .noSource) → t.cond k = s.cond k) ∧ t.store = s.store ∧ RunsKept s t ∧
        (∀ f, (t.feed f).port = (s.feed f).port ∧ (t.feed f).conv = (s.feed f).conv) ∧
        (x.config.action = .none → t.feeds = s.feeds ∧ t.progs = s.progs ∧ OtherEntriesKept e s t) ∧
        (∀ f k, e = feedEntry f k → x.config.action = .failover → (s.feed f).healthy = false →
          (s.feed f).port.enable = true →
          (∀ k', k' ≠ k → ¬HoldsUnhealthy (s.entry (feedEntry f k'))) → HealthGained f s t ∧ OtherFeedsKept f s t))) ∧
  (∀ (s : State) (o : CloseOrder) (e : EntryId), s.inReset = false →
    (e.val < 80 ∧ e.val % 5 ≠ 4 ∨ e = houseRefEntry) →
    let x := s.entry e
    let s' : State := { s with blockCounter := s.blockCounter + 1 }
    let detail (n : Nat) := [BitVec.ofNat 8 e.val, BitVec.ofNat 8 x.config.severity.code, BitVec.ofNat 8 n]
    ∃ t, exec (.blockClose o) s = .next t ∧
      (x.state = .clear ∨ x.state = .active → t.entry e = x) ∧
      (x.state = .rising ∨ x.state = .falling → 2 ≤ x.timer ∨ o.expiriesApart = true →
        t.entry e = { x with timer := x.timer - 1 }) ∧
      (x.state = .rising → x.timer ≤ 1 → o.expiriesApart = false →
        (t.entry e).state = .active ∧ (t.entry e).timer = 0 ∧
        (t.entry e).raiseCount = min (x.raiseCount + 1) 255 ∧ (t.entry e).stamp = s.blockCounter + 1 ∧
        (x.config.severity ≠ .off → (t.entry e).latched = true ∧ (t.entry e).acknowledged = false ∧
          Reported .alarmRaised (entrySource e) (detail (min (x.raiseCount + 1) 255)) s' t) ∧
        (∀ f k, e = feedEntry f k → x.config.action = .failover → (t.feed f).healthy = false ∧
          ((s.feed f).healthy = true → (∀ e', e' ≠ e → HandsNothing s e') → ∀ p, (s.prog p).state = .running →
            Names (s.prog p).currentSet f → s.progCond p .noSource = false → (s.prog p).autoReturn = false →
            (t.prog p).swap = failoverSwap (s.prog p)))) ∧
      (x.state = .falling → x.timer ≤ 1 → o.expiriesApart = false →
        (t.entry e).state = .clear ∧ (t.entry e).timer = 0 ∧
        (t.entry e).latched = (x.latched && !x.acknowledged) ∧ (t.entry e).raiseCount = x.raiseCount ∧
        (x.config.severity ≠ .off → Reported .alarmCleared (entrySource e) (detail x.raiseCount) s' t))) ∧
  ∀ (s : State) (e : EntryId),
    let x := s.entry e
    (x.state = .clear → x.config.raiseDelay = 0 → s.cond e = false →
      (x.config.action = .none → (setCond e true s).feeds = s.feeds ∧ (setCond e true s).progs = s.progs) ∧
        (∀ f k, e = feedEntry f k → x.config.action = .failover →
          HealthLost f s (setCond e true s) ∧ OtherFeedsKept f s (setCond e true s)) ∧
        ((setCond e true s).entry e).state = .active ∧
        ((setCond e true s).entry e).raiseCount = min (x.raiseCount + 1) 255 ∧
        ((setCond e true s).entry e).stamp = s.blockCounter ∧
        (x.config.severity ≠ .off →
          ((setCond e true s).entry e).latched = true ∧ ((setCond e true s).entry e).acknowledged = false ∧
          Reported .alarmRaised (entrySource e)
            [BitVec.ofNat 8 e.val, BitVec.ofNat 8 x.config.severity.code, BitVec.ofNat 8 (min (x.raiseCount + 1) 255)] s
            (setCond e true s))) ∧
    (x.state = .active → x.config.clearDelay = 0 → s.cond e = true →
      (x.config.action = .none → (setCond e false s).feeds = s.feeds ∧ (setCond e false s).progs = s.progs) ∧
        (∀ f k, e = feedEntry f k → x.config.action = .failover → (s.feed f).healthy = false →
          (s.feed f).port.enable = true →
          (∀ k', k' ≠ k → ¬HoldsUnhealthy (s.entry (feedEntry f k'))) →
          HealthGained f s (setCond e false s) ∧ OtherFeedsKept f s (setCond e false s)) ∧
        ((setCond e false s).entry e).state = .clear ∧
        ((setCond e false s).entry e).latched = (x.latched && !x.acknowledged) ∧
        (x.config.severity ≠ .off → Reported .alarmCleared (entrySource e)
          [BitVec.ofNat 8 e.val, BitVec.ofNat 8 x.config.severity.code, BitVec.ofNat 8 x.raiseCount] s
          (setCond e false s)))

/-! ## Laws of the device, kept by every step -/

/-- Right after reset every law of the device holds. -/
def Obligations.ResetIsSound : Prop := Sound State.reset

/-- The Notice Queue never holds more than 32 notices, and ATTN is asserted exactly when the list or the missed set is
not empty (R153, R157). A notice joins a list of fewer than 32 at its newest end with the block counter as its
stamp; from a full one it is lost, and its source joins the missed set (R153). -/
def Obligations.NoticeQueueLawKept : Prop :=
  (∀ s t : State, QueueLaw s → AttnLaw s → step s = .next t → QueueLaw t ∧ AttnLaw t) ∧
  ∀ (k : NoticeKind) (src : Source) (detail : List Byte) (s : State),
    (s.notices.length < 32 → ∃ d : List Byte, d.length = 6 ∧ (∀ i < detail.length, i < 6 → d[i]? = detail[i]?) ∧
      pushNotice k src detail s = { s with notices := s.notices ++ [⟨k, src, d, s.blockCounter⟩] }) ∧
    (32 ≤ s.notices.length →
      ∃ m : BitVec 32, pushNotice k src detail s = { s with missed := m } ∧
        ∀ i < 32, m.getLsbD i = (s.missed.getLsbD i || decide (i = src.code)))

/-- After every command, and at every step, the lamps are lit exactly by the latched, unacknowledged MAJOR and MINOR
entries, and they are dark after both resets (R142). -/
def Obligations.LampsFollowEntries : Prop :=
  (∀ (c : Instr) (s t : State), s.inReset = false → c ≠ .powerOnResetStart → exec c s = .next t →
    LampLaw t .major t.lampMajor ∧ LampLaw t .minor t.lampMinor) ∧
  (∀ s t : State, LampLaw s .major s.lampMajor → LampLaw s .minor s.lampMinor → step s = .next t →
    LampLaw t .major t.lampMajor ∧ LampLaw t .minor t.lampMinor) ∧
  (∀ (s t : State) (u : BitVec 5) (b : BitVec 2), exec (.powerOnReset u b) s = .next t →
    t.lampMajor = false ∧ t.lampMinor = false) ∧
  ∀ s t : State, s.inReset = false → exec .unitRestart s = .next t → t.lampMajor = false ∧ t.lampMinor = false

/-- G stays within the active bounds, and at 0 outside CORRECT (R100); the members of a link group apply the least G
among them, between closes too (R104, R105); and SILENCE is true exactly while a program that runs or stops has a
silence time and its silence timer stands at 0 (R93 to R95). -/
def Obligations.GainLawsKept : Prop :=
  (∀ s t : State, GainLaw s → step s = .next t → GainLaw t) ∧
  (∀ s t : State, LinkLaw s → step s = .next t → LinkLaw t) ∧
  ∀ s t : State, SilenceLaw s → step s = .next t → SilenceLaw t

/-- Every page is on the free list or on one chain, 4,096 in all, and every program holds c × P of them (R113, R114). -/
def Obligations.PoolLawKept : Prop := ∀ s t : State, PoolLaw s → step s = .next t → PoolLaw t

/-- The source stack holds 1 to 4 distinct defined ranks while a program runs or stops, and is empty otherwise (R64). -/
def Obligations.StackLawKept : Prop := ∀ s t : State, StackLaw s → step s = .next t → StackLaw t

/-- Dtgt, the latency conditions and a settled Dcur follow the latency equation, Dcur keeps within the ring bound, the
write position and the flush counter keep within the ring, and a program that does not run or stop has both latency
conditions false (R116, R118, R119, R125, R126); so Dtgt and Dcur of a program that runs or stops, each with the current
set's trim_max and 1 more, are at most P × 1,024 (R125; that a step up keeps it where the bound has come down to Dcur is
log 29); and a RUNNING program with no delay operation in flight and neither latency condition has L_src_max + Dcur + 48
= Ltgt (R126). -/
def Obligations.DelayLawKept : Prop :=
  (∀ s t : State, StackLaw s → DelayLaw s → step s = .next t → DelayLaw t) ∧
  (∀ (s : State) (p : ProgId), DelayLaw s → (s.prog p).active = true →
    (s.prog p).delay.dtgt + trimMax s (s.prog p) + 1 ≤ (s.prog p).delay.reserve * 1024 ∧
      (s.prog p).delay.dcur + trimMax s (s.prog p) + 1 ≤ (s.prog p).delay.reserve * 1024) ∧
  ∀ (s : State) (p : ProgId), DelayLaw s → (s.prog p).state = .running → (s.prog p).delay.op = .none →
    s.progCond p .latencyUnder = false → s.progCond p .latencyOver = false →
    lsrcMax s (s.prog p) + (s.prog p).delay.dcur + 48 = (s.prog p).delay.ltgt

/-- The feed conditions follow the ports and the converters, and the FIFO and the ratio estimate keep their bounds (R5,
R10, R23, R28, R33, R37); every alarm entry follows its condition through its states, within its ranges (R131, R134,
R139, R140). -/
def Obligations.FeedAndEntryLawsKept : Prop :=
  (∀ s t : State, FeedLaw s → step s = .next t → FeedLaw t) ∧ ∀ s t : State, EntryLaw s → step s = .next t → EntryLaw t

/-- A feed is healthy exactly while it is enabled with no FAILOVER entry of it ACTIVE or FALLING (R62). -/
def Obligations.HealthLawKept : Prop := ∀ s t : State, HealthLaw s → step s = .next t → HealthLaw t

/-- NO_SOURCE and ON_BACKUP follow eligibility and the stack (R76, R77). -/
def Obligations.SourceLawKept : Prop := ∀ s t : State, Sound s → step s = .next t → SourceLaw t

end
end

