-- ==== Sys2Proof/Laws/State.lean ====
section
/-! SUPPORT. Each named update of the state against each field and each accessor: what it sets, and that it leaves every
other field as it stood. -/
namespace Sys2Proof.Machine

/-! ## A change of one record is its update with a new value -/

@[simp] theorem State.onProg_eq (s : State) (p : ProgId) (g : Program → Program) :
    s.onProg p g = s.setProg p (g (s.prog p)) := rfl

@[simp] theorem State.onPort_eq (s : State) (f : FeedId) (g : Port → Port) :
    s.onPort f g = s.setFeed f { s.feed f with port := g (s.feed f).port } := rfl

@[simp] theorem followQuiet_eq (e : EntryId) (v : Bool) (s : State) : followQuiet e v s = (follow e v s).1 := rfl

/-! ## Fields an update leaves -/

@[simp] theorem State.setFeed_pending (s : State) (f : FeedId) (x : Feed) : (s.setFeed f x).pending = s.pending := rfl
@[simp] theorem State.setFeed_monitor (s : State) (f : FeedId) (x : Feed) : (s.setFeed f x).monitor = s.monitor := rfl
@[simp] theorem State.setFeed_progs (s : State) (f : FeedId) (x : Feed) : (s.setFeed f x).progs = s.progs := rfl
@[simp] theorem State.setFeed_freePages (s : State) (f : FeedId) (x : Feed) : (s.setFeed f x).freePages = s.freePages := rfl
@[simp] theorem State.setFeed_store (s : State) (f : FeedId) (x : Feed) : (s.setFeed f x).store = s.store := rfl
@[simp] theorem State.setFeed_entries (s : State) (f : FeedId) (x : Feed) : (s.setFeed f x).entries = s.entries := rfl
@[simp] theorem State.setFeed_conds (s : State) (f : FeedId) (x : Feed) : (s.setFeed f x).conds = s.conds := rfl
@[simp] theorem State.setFeed_notices (s : State) (f : FeedId) (x : Feed) : (s.setFeed f x).notices = s.notices := rfl
@[simp] theorem State.setFeed_missed (s : State) (f : FeedId) (x : Feed) : (s.setFeed f x).missed = s.missed := rfl
@[simp] theorem State.setFeed_blockCounter (s : State) (f : FeedId) (x : Feed) : (s.setFeed f x).blockCounter = s.blockCounter := rfl
@[simp] theorem State.setFeed_rx (s : State) (f : FeedId) (x : Feed) : (s.setFeed f x).rx = s.rx := rfl
@[simp] theorem State.setFeed_reply (s : State) (f : FeedId) (x : Feed) : (s.setFeed f x).reply = s.reply := rfl
@[simp] theorem State.setFeed_restart (s : State) (f : FeedId) (x : Feed) : (s.setFeed f x).restart = s.restart := rfl
@[simp] theorem State.setFeed_unitAddr (s : State) (f : FeedId) (x : Feed) : (s.setFeed f x).unitAddr = s.unitAddr := rfl
@[simp] theorem State.setFeed_baud (s : State) (f : FeedId) (x : Feed) : (s.setFeed f x).baud = s.baud := rfl
@[simp] theorem State.setFeed_resetCause (s : State) (f : FeedId) (x : Feed) : (s.setFeed f x).resetCause = s.resetCause := rfl
@[simp] theorem State.setFeed_inReset (s : State) (f : FeedId) (x : Feed) : (s.setFeed f x).inReset = s.inReset := rfl
@[simp] theorem State.setFeed_attn (s : State) (f : FeedId) (x : Feed) : (s.setFeed f x).attn = s.attn := rfl
@[simp] theorem State.setFeed_lampMajor (s : State) (f : FeedId) (x : Feed) : (s.setFeed f x).lampMajor = s.lampMajor := rfl
@[simp] theorem State.setFeed_lampMinor (s : State) (f : FeedId) (x : Feed) : (s.setFeed f x).lampMinor = s.lampMinor := rfl
@[simp] theorem State.setFeed_ports (s : State) (f : FeedId) (x : Feed) : (s.setFeed f x).ports = s.ports := rfl
@[simp] theorem State.setFeed_tick (s : State) (f : FeedId) (x : Feed) : (s.setFeed f x).tick = s.tick := rfl
@[simp] theorem State.setFeed_sampleInBlock (s : State) (f : FeedId) (x : Feed) : (s.setFeed f x).sampleInBlock = s.sampleInBlock := rfl
@[simp] theorem State.setFeed_freeCount (s : State) (f : FeedId) (x : Feed) : (s.setFeed f x).freeCount = s.freeCount := rfl

@[simp] theorem State.setProg_pending (s : State) (p : ProgId) (x : Program) : (s.setProg p x).pending = s.pending := rfl
@[simp] theorem State.setProg_feeds (s : State) (p : ProgId) (x : Program) : (s.setProg p x).feeds = s.feeds := rfl
@[simp] theorem State.setProg_monitor (s : State) (p : ProgId) (x : Program) : (s.setProg p x).monitor = s.monitor := rfl
@[simp] theorem State.setProg_freePages (s : State) (p : ProgId) (x : Program) : (s.setProg p x).freePages = s.freePages := rfl
@[simp] theorem State.setProg_store (s : State) (p : ProgId) (x : Program) : (s.setProg p x).store = s.store := rfl
@[simp] theorem State.setProg_entries (s : State) (p : ProgId) (x : Program) : (s.setProg p x).entries = s.entries := rfl
@[simp] theorem State.setProg_conds (s : State) (p : ProgId) (x : Program) : (s.setProg p x).conds = s.conds := rfl
@[simp] theorem State.setProg_notices (s : State) (p : ProgId) (x : Program) : (s.setProg p x).notices = s.notices := rfl
@[simp] theorem State.setProg_missed (s : State) (p : ProgId) (x : Program) : (s.setProg p x).missed = s.missed := rfl
@[simp] theorem State.setProg_blockCounter (s : State) (p : ProgId) (x : Program) : (s.setProg p x).blockCounter = s.blockCounter := rfl
@[simp] theorem State.setProg_rx (s : State) (p : ProgId) (x : Program) : (s.setProg p x).rx = s.rx := rfl
@[simp] theorem State.setProg_reply (s : State) (p : ProgId) (x : Program) : (s.setProg p x).reply = s.reply := rfl
@[simp] theorem State.setProg_restart (s : State) (p : ProgId) (x : Program) : (s.setProg p x).restart = s.restart := rfl
@[simp] theorem State.setProg_unitAddr (s : State) (p : ProgId) (x : Program) : (s.setProg p x).unitAddr = s.unitAddr := rfl
@[simp] theorem State.setProg_baud (s : State) (p : ProgId) (x : Program) : (s.setProg p x).baud = s.baud := rfl
@[simp] theorem State.setProg_resetCause (s : State) (p : ProgId) (x : Program) : (s.setProg p x).resetCause = s.resetCause := rfl
@[simp] theorem State.setProg_inReset (s : State) (p : ProgId) (x : Program) : (s.setProg p x).inReset = s.inReset := rfl
@[simp] theorem State.setProg_attn (s : State) (p : ProgId) (x : Program) : (s.setProg p x).attn = s.attn := rfl
@[simp] theorem State.setProg_lampMajor (s : State) (p : ProgId) (x : Program) : (s.setProg p x).lampMajor = s.lampMajor := rfl
@[simp] theorem State.setProg_lampMinor (s : State) (p : ProgId) (x : Program) : (s.setProg p x).lampMinor = s.lampMinor := rfl
@[simp] theorem State.setProg_ports (s : State) (p : ProgId) (x : Program) : (s.setProg p x).ports = s.ports := rfl
@[simp] theorem State.setProg_tick (s : State) (p : ProgId) (x : Program) : (s.setProg p x).tick = s.tick := rfl
@[simp] theorem State.setProg_sampleInBlock (s : State) (p : ProgId) (x : Program) : (s.setProg p x).sampleInBlock = s.sampleInBlock := rfl
@[simp] theorem State.setProg_freeCount (s : State) (p : ProgId) (x : Program) : (s.setProg p x).freeCount = s.freeCount := rfl

@[simp] theorem State.setEntry_pending (s : State) (e : EntryId) (x : Entry) : (s.setEntry e x).pending = s.pending := rfl
@[simp] theorem State.setEntry_feeds (s : State) (e : EntryId) (x : Entry) : (s.setEntry e x).feeds = s.feeds := rfl
@[simp] theorem State.setEntry_monitor (s : State) (e : EntryId) (x : Entry) : (s.setEntry e x).monitor = s.monitor := rfl
@[simp] theorem State.setEntry_progs (s : State) (e : EntryId) (x : Entry) : (s.setEntry e x).progs = s.progs := rfl
@[simp] theorem State.setEntry_freePages (s : State) (e : EntryId) (x : Entry) : (s.setEntry e x).freePages = s.freePages := rfl
@[simp] theorem State.setEntry_store (s : State) (e : EntryId) (x : Entry) : (s.setEntry e x).store = s.store := rfl
@[simp] theorem State.setEntry_conds (s : State) (e : EntryId) (x : Entry) : (s.setEntry e x).conds = s.conds := rfl
@[simp] theorem State.setEntry_notices (s : State) (e : EntryId) (x : Entry) : (s.setEntry e x).notices = s.notices := rfl
@[simp] theorem State.setEntry_missed (s : State) (e : EntryId) (x : Entry) : (s.setEntry e x).missed = s.missed := rfl
@[simp] theorem State.setEntry_blockCounter (s : State) (e : EntryId) (x : Entry) : (s.setEntry e x).blockCounter = s.blockCounter := rfl
@[simp] theorem State.setEntry_rx (s : State) (e : EntryId) (x : Entry) : (s.setEntry e x).rx = s.rx := rfl
@[simp] theorem State.setEntry_reply (s : State) (e : EntryId) (x : Entry) : (s.setEntry e x).reply = s.reply := rfl
@[simp] theorem State.setEntry_restart (s : State) (e : EntryId) (x : Entry) : (s.setEntry e x).restart = s.restart := rfl
@[simp] theorem State.setEntry_unitAddr (s : State) (e : EntryId) (x : Entry) : (s.setEntry e x).unitAddr = s.unitAddr := rfl
@[simp] theorem State.setEntry_baud (s : State) (e : EntryId) (x : Entry) : (s.setEntry e x).baud = s.baud := rfl
@[simp] theorem State.setEntry_resetCause (s : State) (e : EntryId) (x : Entry) : (s.setEntry e x).resetCause = s.resetCause := rfl
@[simp] theorem State.setEntry_inReset (s : State) (e : EntryId) (x : Entry) : (s.setEntry e x).inReset = s.inReset := rfl
@[simp] theorem State.setEntry_attn (s : State) (e : EntryId) (x : Entry) : (s.setEntry e x).attn = s.attn := rfl
@[simp] theorem State.setEntry_lampMajor (s : State) (e : EntryId) (x : Entry) : (s.setEntry e x).lampMajor = s.lampMajor := rfl
@[simp] theorem State.setEntry_lampMinor (s : State) (e : EntryId) (x : Entry) : (s.setEntry e x).lampMinor = s.lampMinor := rfl
@[simp] theorem State.setEntry_ports (s : State) (e : EntryId) (x : Entry) : (s.setEntry e x).ports = s.ports := rfl
@[simp] theorem State.setEntry_tick (s : State) (e : EntryId) (x : Entry) : (s.setEntry e x).tick = s.tick := rfl
@[simp] theorem State.setEntry_sampleInBlock (s : State) (e : EntryId) (x : Entry) : (s.setEntry e x).sampleInBlock = s.sampleInBlock := rfl
@[simp] theorem State.setEntry_freeCount (s : State) (e : EntryId) (x : Entry) : (s.setEntry e x).freeCount = s.freeCount := rfl

@[simp] theorem State.setCondBit_pending (s : State) (e : EntryId) (v : Bool) : (s.setCondBit e v).pending = s.pending := rfl
@[simp] theorem State.setCondBit_feeds (s : State) (e : EntryId) (v : Bool) : (s.setCondBit e v).feeds = s.feeds := rfl
@[simp] theorem State.setCondBit_monitor (s : State) (e : EntryId) (v : Bool) : (s.setCondBit e v).monitor = s.monitor := rfl
@[simp] theorem State.setCondBit_progs (s : State) (e : EntryId) (v : Bool) : (s.setCondBit e v).progs = s.progs := rfl
@[simp] theorem State.setCondBit_freePages (s : State) (e : EntryId) (v : Bool) : (s.setCondBit e v).freePages = s.freePages := rfl
@[simp] theorem State.setCondBit_store (s : State) (e : EntryId) (v : Bool) : (s.setCondBit e v).store = s.store := rfl
@[simp] theorem State.setCondBit_entries (s : State) (e : EntryId) (v : Bool) : (s.setCondBit e v).entries = s.entries := rfl
@[simp] theorem State.setCondBit_notices (s : State) (e : EntryId) (v : Bool) : (s.setCondBit e v).notices = s.notices := rfl
@[simp] theorem State.setCondBit_missed (s : State) (e : EntryId) (v : Bool) : (s.setCondBit e v).missed = s.missed := rfl
@[simp] theorem State.setCondBit_blockCounter (s : State) (e : EntryId) (v : Bool) : (s.setCondBit e v).blockCounter = s.blockCounter := rfl
@[simp] theorem State.setCondBit_rx (s : State) (e : EntryId) (v : Bool) : (s.setCondBit e v).rx = s.rx := rfl
@[simp] theorem State.setCondBit_reply (s : State) (e : EntryId) (v : Bool) : (s.setCondBit e v).reply = s.reply := rfl
@[simp] theorem State.setCondBit_restart (s : State) (e : EntryId) (v : Bool) : (s.setCondBit e v).restart = s.restart := rfl
@[simp] theorem State.setCondBit_unitAddr (s : State) (e : EntryId) (v : Bool) : (s.setCondBit e v).unitAddr = s.unitAddr := rfl
@[simp] theorem State.setCondBit_baud (s : State) (e : EntryId) (v : Bool) : (s.setCondBit e v).baud = s.baud := rfl
@[simp] theorem State.setCondBit_resetCause (s : State) (e : EntryId) (v : Bool) : (s.setCondBit e v).resetCause = s.resetCause := rfl
@[simp] theorem State.setCondBit_inReset (s : State) (e : EntryId) (v : Bool) : (s.setCondBit e v).inReset = s.inReset := rfl
@[simp] theorem State.setCondBit_attn (s : State) (e : EntryId) (v : Bool) : (s.setCondBit e v).attn = s.attn := rfl
@[simp] theorem State.setCondBit_lampMajor (s : State) (e : EntryId) (v : Bool) : (s.setCondBit e v).lampMajor = s.lampMajor := rfl
@[simp] theorem State.setCondBit_lampMinor (s : State) (e : EntryId) (v : Bool) : (s.setCondBit e v).lampMinor = s.lampMinor := rfl
@[simp] theorem State.setCondBit_ports (s : State) (e : EntryId) (v : Bool) : (s.setCondBit e v).ports = s.ports := rfl
@[simp] theorem State.setCondBit_tick (s : State) (e : EntryId) (v : Bool) : (s.setCondBit e v).tick = s.tick := rfl
@[simp] theorem State.setCondBit_sampleInBlock (s : State) (e : EntryId) (v : Bool) : (s.setCondBit e v).sampleInBlock = s.sampleInBlock := rfl
@[simp] theorem State.setCondBit_freeCount (s : State) (e : EntryId) (v : Bool) : (s.setCondBit e v).freeCount = s.freeCount := rfl

@[simp] theorem State.setPort_pending (s : State) (p : ProgId) (fr : Vector (BitVec 32) 8) : (s.setPort p fr).pending = s.pending := rfl
@[simp] theorem State.setPort_feeds (s : State) (p : ProgId) (fr : Vector (BitVec 32) 8) : (s.setPort p fr).feeds = s.feeds := rfl
@[simp] theorem State.setPort_monitor (s : State) (p : ProgId) (fr : Vector (BitVec 32) 8) : (s.setPort p fr).monitor = s.monitor := rfl
@[simp] theorem State.setPort_progs (s : State) (p : ProgId) (fr : Vector (BitVec 32) 8) : (s.setPort p fr).progs = s.progs := rfl
@[simp] theorem State.setPort_freePages (s : State) (p : ProgId) (fr : Vector (BitVec 32) 8) : (s.setPort p fr).freePages = s.freePages := rfl
@[simp] theorem State.setPort_store (s : State) (p : ProgId) (fr : Vector (BitVec 32) 8) : (s.setPort p fr).store = s.store := rfl
@[simp] theorem State.setPort_entries (s : State) (p : ProgId) (fr : Vector (BitVec 32) 8) : (s.setPort p fr).entries = s.entries := rfl
@[simp] theorem State.setPort_conds (s : State) (p : ProgId) (fr : Vector (BitVec 32) 8) : (s.setPort p fr).conds = s.conds := rfl
@[simp] theorem State.setPort_notices (s : State) (p : ProgId) (fr : Vector (BitVec 32) 8) : (s.setPort p fr).notices = s.notices := rfl
@[simp] theorem State.setPort_missed (s : State) (p : ProgId) (fr : Vector (BitVec 32) 8) : (s.setPort p fr).missed = s.missed := rfl
@[simp] theorem State.setPort_blockCounter (s : State) (p : ProgId) (fr : Vector (BitVec 32) 8) : (s.setPort p fr).blockCounter = s.blockCounter := rfl
@[simp] theorem State.setPort_rx (s : State) (p : ProgId) (fr : Vector (BitVec 32) 8) : (s.setPort p fr).rx = s.rx := rfl
@[simp] theorem State.setPort_reply (s : State) (p : ProgId) (fr : Vector (BitVec 32) 8) : (s.setPort p fr).reply = s.reply := rfl
@[simp] theorem State.setPort_restart (s : State) (p : ProgId) (fr : Vector (BitVec 32) 8) : (s.setPort p fr).restart = s.restart := rfl
@[simp] theorem State.setPort_unitAddr (s : State) (p : ProgId) (fr : Vector (BitVec 32) 8) : (s.setPort p fr).unitAddr = s.unitAddr := rfl
@[simp] theorem State.setPort_baud (s : State) (p : ProgId) (fr : Vector (BitVec 32) 8) : (s.setPort p fr).baud = s.baud := rfl
@[simp] theorem State.setPort_resetCause (s : State) (p : ProgId) (fr : Vector (BitVec 32) 8) : (s.setPort p fr).resetCause = s.resetCause := rfl
@[simp] theorem State.setPort_inReset (s : State) (p : ProgId) (fr : Vector (BitVec 32) 8) : (s.setPort p fr).inReset = s.inReset := rfl
@[simp] theorem State.setPort_attn (s : State) (p : ProgId) (fr : Vector (BitVec 32) 8) : (s.setPort p fr).attn = s.attn := rfl
@[simp] theorem State.setPort_lampMajor (s : State) (p : ProgId) (fr : Vector (BitVec 32) 8) : (s.setPort p fr).lampMajor = s.lampMajor := rfl
@[simp] theorem State.setPort_lampMinor (s : State) (p : ProgId) (fr : Vector (BitVec 32) 8) : (s.setPort p fr).lampMinor = s.lampMinor := rfl
@[simp] theorem State.setPort_tick (s : State) (p : ProgId) (fr : Vector (BitVec 32) 8) : (s.setPort p fr).tick = s.tick := rfl
@[simp] theorem State.setPort_sampleInBlock (s : State) (p : ProgId) (fr : Vector (BitVec 32) 8) : (s.setPort p fr).sampleInBlock = s.sampleInBlock := rfl
@[simp] theorem State.setPort_freeCount (s : State) (p : ProgId) (fr : Vector (BitVec 32) 8) : (s.setPort p fr).freeCount = s.freeCount := rfl

@[simp] theorem State.withRx_pending (s : State) (r : Receiver) : (s.withRx r).pending = s.pending := rfl
@[simp] theorem State.withRx_feeds (s : State) (r : Receiver) : (s.withRx r).feeds = s.feeds := rfl
@[simp] theorem State.withRx_monitor (s : State) (r : Receiver) : (s.withRx r).monitor = s.monitor := rfl
@[simp] theorem State.withRx_progs (s : State) (r : Receiver) : (s.withRx r).progs = s.progs := rfl
@[simp] theorem State.withRx_freePages (s : State) (r : Receiver) : (s.withRx r).freePages = s.freePages := rfl
@[simp] theorem State.withRx_store (s : State) (r : Receiver) : (s.withRx r).store = s.store := rfl
@[simp] theorem State.withRx_entries (s : State) (r : Receiver) : (s.withRx r).entries = s.entries := rfl
@[simp] theorem State.withRx_conds (s : State) (r : Receiver) : (s.withRx r).conds = s.conds := rfl
@[simp] theorem State.withRx_notices (s : State) (r : Receiver) : (s.withRx r).notices = s.notices := rfl
@[simp] theorem State.withRx_missed (s : State) (r : Receiver) : (s.withRx r).missed = s.missed := rfl
@[simp] theorem State.withRx_blockCounter (s : State) (r : Receiver) : (s.withRx r).blockCounter = s.blockCounter := rfl
@[simp] theorem State.withRx_reply (s : State) (r : Receiver) : (s.withRx r).reply = s.reply := rfl
@[simp] theorem State.withRx_restart (s : State) (r : Receiver) : (s.withRx r).restart = s.restart := rfl
@[simp] theorem State.withRx_unitAddr (s : State) (r : Receiver) : (s.withRx r).unitAddr = s.unitAddr := rfl
@[simp] theorem State.withRx_baud (s : State) (r : Receiver) : (s.withRx r).baud = s.baud := rfl
@[simp] theorem State.withRx_resetCause (s : State) (r : Receiver) : (s.withRx r).resetCause = s.resetCause := rfl
@[simp] theorem State.withRx_inReset (s : State) (r : Receiver) : (s.withRx r).inReset = s.inReset := rfl
@[simp] theorem State.withRx_attn (s : State) (r : Receiver) : (s.withRx r).attn = s.attn := rfl
@[simp] theorem State.withRx_lampMajor (s : State) (r : Receiver) : (s.withRx r).lampMajor = s.lampMajor := rfl
@[simp] theorem State.withRx_lampMinor (s : State) (r : Receiver) : (s.withRx r).lampMinor = s.lampMinor := rfl
@[simp] theorem State.withRx_ports (s : State) (r : Receiver) : (s.withRx r).ports = s.ports := rfl
@[simp] theorem State.withRx_tick (s : State) (r : Receiver) : (s.withRx r).tick = s.tick := rfl
@[simp] theorem State.withRx_sampleInBlock (s : State) (r : Receiver) : (s.withRx r).sampleInBlock = s.sampleInBlock := rfl
@[simp] theorem State.withRx_freeCount (s : State) (r : Receiver) : (s.withRx r).freeCount = s.freeCount := rfl

/-! ## Accessors through the fields they read -/

theorem State.feed_congr {s t : State} (h : t.feeds = s.feeds) (f : FeedId) : t.feed f = s.feed f := by
  simp [State.feed, h]

theorem State.prog_congr {s t : State} (h : t.progs = s.progs) (p : ProgId) : t.prog p = s.prog p := by
  simp [State.prog, h]

theorem State.entry_congr {s t : State} (h : t.entries = s.entries) (e : EntryId) : t.entry e = s.entry e := by
  simp [State.entry, h]

theorem State.cond_congr {s t : State} (h : t.conds = s.conds) (e : EntryId) : t.cond e = s.cond e := by
  simp [State.cond, h]

@[simp] theorem State.setFeed_prog (s : State) (f : FeedId) (x : Feed) (p₂ : ProgId) : (s.setFeed f x).prog p₂ = s.prog p₂ := rfl
@[simp] theorem State.setFeed_entry (s : State) (f : FeedId) (x : Feed) (e₂ : EntryId) : (s.setFeed f x).entry e₂ = s.entry e₂ := rfl
@[simp] theorem State.setFeed_cond (s : State) (f : FeedId) (x : Feed) (e₂ : EntryId) : (s.setFeed f x).cond e₂ = s.cond e₂ := rfl
@[simp] theorem State.setProg_feed (s : State) (p : ProgId) (x : Program) (f₂ : FeedId) : (s.setProg p x).feed f₂ = s.feed f₂ := rfl
@[simp] theorem State.setProg_entry (s : State) (p : ProgId) (x : Program) (e₂ : EntryId) : (s.setProg p x).entry e₂ = s.entry e₂ := rfl
@[simp] theorem State.setProg_cond (s : State) (p : ProgId) (x : Program) (e₂ : EntryId) : (s.setProg p x).cond e₂ = s.cond e₂ := rfl
@[simp] theorem State.setEntry_feed (s : State) (e : EntryId) (x : Entry) (f₂ : FeedId) : (s.setEntry e x).feed f₂ = s.feed f₂ := rfl
@[simp] theorem State.setEntry_prog (s : State) (e : EntryId) (x : Entry) (p₂ : ProgId) : (s.setEntry e x).prog p₂ = s.prog p₂ := rfl
@[simp] theorem State.setEntry_cond (s : State) (e : EntryId) (x : Entry) (e₂ : EntryId) : (s.setEntry e x).cond e₂ = s.cond e₂ := rfl
@[simp] theorem State.setCondBit_feed (s : State) (e : EntryId) (v : Bool) (f₂ : FeedId) : (s.setCondBit e v).feed f₂ = s.feed f₂ := rfl
@[simp] theorem State.setCondBit_prog (s : State) (e : EntryId) (v : Bool) (p₂ : ProgId) : (s.setCondBit e v).prog p₂ = s.prog p₂ := rfl
@[simp] theorem State.setCondBit_entry (s : State) (e : EntryId) (v : Bool) (e₂ : EntryId) : (s.setCondBit e v).entry e₂ = s.entry e₂ := rfl
@[simp] theorem State.setPort_feed (s : State) (p : ProgId) (fr : Vector (BitVec 32) 8) (f₂ : FeedId) : (s.setPort p fr).feed f₂ = s.feed f₂ := rfl
@[simp] theorem State.setPort_prog (s : State) (p : ProgId) (fr : Vector (BitVec 32) 8) (p₂ : ProgId) : (s.setPort p fr).prog p₂ = s.prog p₂ := rfl
@[simp] theorem State.setPort_entry (s : State) (p : ProgId) (fr : Vector (BitVec 32) 8) (e₂ : EntryId) : (s.setPort p fr).entry e₂ = s.entry e₂ := rfl
@[simp] theorem State.setPort_cond (s : State) (p : ProgId) (fr : Vector (BitVec 32) 8) (e₂ : EntryId) : (s.setPort p fr).cond e₂ = s.cond e₂ := rfl
@[simp] theorem State.withRx_feed (s : State) (r : Receiver) (f₂ : FeedId) : (s.withRx r).feed f₂ = s.feed f₂ := rfl
@[simp] theorem State.withRx_prog (s : State) (r : Receiver) (p₂ : ProgId) : (s.withRx r).prog p₂ = s.prog p₂ := rfl
@[simp] theorem State.withRx_entry (s : State) (r : Receiver) (e₂ : EntryId) : (s.withRx r).entry e₂ = s.entry e₂ := rfl
@[simp] theorem State.withRx_cond (s : State) (r : Receiver) (e₂ : EntryId) : (s.withRx r).cond e₂ = s.cond e₂ := rfl

/-! ## The record an update sets -/

theorem State.setFeed_feed (s : State) (f g : FeedId) (x : Feed) :
    (s.setFeed f x).feed g = if g = f then x else s.feed g := by
  simp only [State.setFeed, State.feed, Vector.getElem_set, Fin.ext_iff, eq_comm]

theorem State.setProg_prog (s : State) (p q : ProgId) (x : Program) :
    (s.setProg p x).prog q = if q = p then x else s.prog q := by
  simp only [State.setProg, State.prog, Vector.getElem_set, Fin.ext_iff, eq_comm]

theorem State.setEntry_entry (s : State) (e d : EntryId) (x : Entry) :
    (s.setEntry e x).entry d = if d = e then x else s.entry d := by
  simp only [State.setEntry, State.entry, Vector.getElem_set, Fin.ext_iff, eq_comm]

theorem State.setCondBit_cond (s : State) (e d : EntryId) (v : Bool) :
    (s.setCondBit e v).cond d = if d = e then v else s.cond d := by
  simp only [State.setCondBit, State.cond, Vector.getElem_set, Fin.ext_iff, eq_comm]

@[simp] theorem State.setFeed_feed_self (s : State) (f : FeedId) (x : Feed) : (s.setFeed f x).feed f = x := by
  simp [State.setFeed_feed]

@[simp] theorem State.setProg_prog_self (s : State) (p : ProgId) (x : Program) : (s.setProg p x).prog p = x := by
  simp [State.setProg_prog]

@[simp] theorem State.setEntry_entry_self (s : State) (e : EntryId) (x : Entry) : (s.setEntry e x).entry e = x := by
  simp [State.setEntry_entry]

@[simp] theorem State.setCondBit_cond_self (s : State) (e : EntryId) (v : Bool) : (s.setCondBit e v).cond e = v := by
  simp [State.setCondBit_cond]

theorem State.setFeed_feed_ne {f g : FeedId} (h : g ≠ f) (s : State) (x : Feed) : (s.setFeed f x).feed g = s.feed g := by
  simp [State.setFeed_feed, h]

theorem State.setProg_prog_ne {p q : ProgId} (h : q ≠ p) (s : State) (x : Program) :
    (s.setProg p x).prog q = s.prog q := by
  simp [State.setProg_prog, h]

theorem State.setEntry_entry_ne {e d : EntryId} (h : d ≠ e) (s : State) (x : Entry) :
    (s.setEntry e x).entry d = s.entry d := by
  simp [State.setEntry_entry, h]

theorem State.setCondBit_cond_ne {e d : EntryId} (h : d ≠ e) (s : State) (v : Bool) :
    (s.setCondBit e v).cond d = s.cond d := by
  simp [State.setCondBit_cond, h]

/-! ## Conditions of a feed and of a program under updates of other fields -/

@[simp] theorem State.setFeed_feedCond (s : State) (f : FeedId) (x : Feed) (f₂ : FeedId) (k : FeedCond) :
    (s.setFeed f x).feedCond f₂ k = s.feedCond f₂ k := rfl
@[simp] theorem State.setFeed_progCond (s : State) (f : FeedId) (x : Feed) (p₂ : ProgId) (k : ProgCond) :
    (s.setFeed f x).progCond p₂ k = s.progCond p₂ k := rfl
@[simp] theorem State.setProg_feedCond (s : State) (p : ProgId) (x : Program) (f₂ : FeedId) (k : FeedCond) :
    (s.setProg p x).feedCond f₂ k = s.feedCond f₂ k := rfl
@[simp] theorem State.setProg_progCond (s : State) (p : ProgId) (x : Program) (p₂ : ProgId) (k : ProgCond) :
    (s.setProg p x).progCond p₂ k = s.progCond p₂ k := rfl
@[simp] theorem State.setEntry_feedCond (s : State) (e : EntryId) (x : Entry) (f₂ : FeedId) (k : FeedCond) :
    (s.setEntry e x).feedCond f₂ k = s.feedCond f₂ k := rfl
@[simp] theorem State.setEntry_progCond (s : State) (e : EntryId) (x : Entry) (p₂ : ProgId) (k : ProgCond) :
    (s.setEntry e x).progCond p₂ k = s.progCond p₂ k := rfl
@[simp] theorem State.setPort_feedCond (s : State) (p : ProgId) (fr : Vector (BitVec 32) 8) (f₂ : FeedId) (k : FeedCond) :
    (s.setPort p fr).feedCond f₂ k = s.feedCond f₂ k := rfl
@[simp] theorem State.setPort_progCond (s : State) (p : ProgId) (fr : Vector (BitVec 32) 8) (p₂ : ProgId) (k : ProgCond) :
    (s.setPort p fr).progCond p₂ k = s.progCond p₂ k := rfl
@[simp] theorem State.withRx_feedCond (s : State) (r : Receiver) (f₂ : FeedId) (k : FeedCond) :
    (s.withRx r).feedCond f₂ k = s.feedCond f₂ k := rfl
@[simp] theorem State.withRx_progCond (s : State) (r : Receiver) (p₂ : ProgId) (k : ProgCond) :
    (s.withRx r).progCond p₂ k = s.progCond p₂ k := rfl

/-! ## The start of a step and its pins -/

@[simp] theorem judgePins_pending (s : State) : (judgePins s).pending = s.pending := rfl
@[simp] theorem judgePins_feeds (s : State) : (judgePins s).feeds = s.feeds := rfl
@[simp] theorem judgePins_monitor (s : State) : (judgePins s).monitor = s.monitor := rfl
@[simp] theorem judgePins_progs (s : State) : (judgePins s).progs = s.progs := rfl
@[simp] theorem judgePins_freePages (s : State) : (judgePins s).freePages = s.freePages := rfl
@[simp] theorem judgePins_store (s : State) : (judgePins s).store = s.store := rfl
@[simp] theorem judgePins_entries (s : State) : (judgePins s).entries = s.entries := rfl
@[simp] theorem judgePins_conds (s : State) : (judgePins s).conds = s.conds := rfl
@[simp] theorem judgePins_notices (s : State) : (judgePins s).notices = s.notices := rfl
@[simp] theorem judgePins_missed (s : State) : (judgePins s).missed = s.missed := rfl
@[simp] theorem judgePins_blockCounter (s : State) : (judgePins s).blockCounter = s.blockCounter := rfl
@[simp] theorem judgePins_rx (s : State) : (judgePins s).rx = s.rx := rfl
@[simp] theorem judgePins_reply (s : State) : (judgePins s).reply = s.reply := rfl
@[simp] theorem judgePins_restart (s : State) : (judgePins s).restart = s.restart := rfl
@[simp] theorem judgePins_unitAddr (s : State) : (judgePins s).unitAddr = s.unitAddr := rfl
@[simp] theorem judgePins_baud (s : State) : (judgePins s).baud = s.baud := rfl
@[simp] theorem judgePins_resetCause (s : State) : (judgePins s).resetCause = s.resetCause := rfl
@[simp] theorem judgePins_inReset (s : State) : (judgePins s).inReset = s.inReset := rfl
@[simp] theorem judgePins_ports (s : State) : (judgePins s).ports = s.ports := rfl
@[simp] theorem judgePins_tick (s : State) : (judgePins s).tick = s.tick := rfl
@[simp] theorem judgePins_sampleInBlock (s : State) : (judgePins s).sampleInBlock = s.sampleInBlock := rfl
@[simp] theorem judgePins_freeCount (s : State) : (judgePins s).freeCount = s.freeCount := rfl
@[simp] theorem judgePins_feed (s : State) (f : FeedId) : (judgePins s).feed f = s.feed f := rfl
@[simp] theorem judgePins_prog (s : State) (p : ProgId) : (judgePins s).prog p = s.prog p := rfl
@[simp] theorem judgePins_entry (s : State) (e : EntryId) : (judgePins s).entry e = s.entry e := rfl
@[simp] theorem judgePins_cond (s : State) (e : EntryId) : (judgePins s).cond e = s.cond e := rfl
@[simp] theorem judgePins_feedCond (s : State) (f : FeedId) (k : FeedCond) :
    (judgePins s).feedCond f k = s.feedCond f k := rfl
@[simp] theorem judgePins_progCond (s : State) (p : ProgId) (k : ProgCond) :
    (judgePins s).progCond p k = s.progCond p k := rfl

end Sys2Proof.Machine
end

