-- ==== Sys2Proof/Laws/Ops.lean ====
section
/-! SUPPORT. What the shared operations of Ops.lean can do: a change made for each of a list, a notice produced, the end
of a step, and the sample memory with its canonical form. -/
namespace Sys2Proof.Machine

/-! ## A change made for each of a list -/

theorem forEach_induction {α : Type} {P : State → Prop} {f : α → State → State} (h : ∀ x s, P s → P (f x s)) :
    ∀ (l : List α) (s : State), P s → P (forEach l f s)
  | [], _, hs => hs
  | x :: l, s, hs => forEach_induction h l (f x s) (h x s hs)

theorem forEach_relation {α : Type} {R : State → State → Prop} {f : α → State → State} (refl : ∀ s, R s s)
    (trans : ∀ {a b c}, R a b → R b c → R a c) (h : ∀ x s, R s (f x s)) :
    ∀ (l : List α) (s : State), R s (forEach l f s)
  | [], s => refl s
  | x :: l, s => trans (h x s) (forEach_relation refl trans h l (f x s))

theorem forEach_proj {α β : Type} {π : State → β} {f : α → State → State} (h : ∀ x s, π (f x s) = π s)
    (l : List α) (s : State) : π (forEach l f s) = π s :=
  forEach_induction (P := fun t => π t = π s) (fun x t ht => (h x t).trans ht) l s rfl

@[simp] theorem forEach_nil {α : Type} (f : α → State → State) (s : State) : forEach [] f s = s := rfl

@[simp] theorem forEach_cons {α : Type} (x : α) (l : List α) (f : α → State → State) (s : State) :
    forEach (x :: l) f s = forEach l f (f x s) := rfl

/-! ## The end of a step -/

theorem onUnit_running {f : State → State} {s : State} (h : s.inReset = false) : onUnit f s = .next (judgePins (f s)) := by
  simp [onUnit, h]

theorem onUnit_inReset {f : State → State} {s : State} (h : s.inReset = true) : onUnit f s = .next s := by
  simp [onUnit, h]

theorem onUnit_next {f : State → State} {s t : State} (h : onUnit f s = .next t) :
    (s.inReset = true ∧ t = s) ∨ (s.inReset = false ∧ t = judgePins (f s)) := by
  cases hr : s.inReset
  · rw [onUnit_running hr] at h; injection h with h; exact .inr ⟨rfl, h.symm⟩
  · rw [onUnit_inReset hr] at h; injection h with h; exact .inl ⟨rfl, h.symm⟩

theorem judgePins_idem (s : State) : judgePins (judgePins s) = judgePins s := rfl

/-- The pins that are judged follow the laws of R142, R153 and R157. -/
theorem judgePins_pinLaw (s : State) : PinLaw (judgePins s) := by
  have lit (sev : Severity) : lampLit sev s.entries.toList = true ↔
      ∃ e, (s.entry e).config.severity = sev ∧ (s.entry e).latched = true ∧ (s.entry e).acknowledged = false := by
    simp only [lampLit, List.any_eq_true, Bool.and_eq_true, beq_iff_eq, Bool.not_eq_true', and_assoc]
    constructor
    · rintro ⟨x, hx, h⟩
      obtain ⟨i, hi, rfl⟩ := List.getElem_of_mem hx
      exact ⟨⟨i, by simpa using hi⟩, by simpa [State.entry] using h⟩
    · rintro ⟨e, h⟩
      exact ⟨s.entry e, by simp [State.entry], h⟩
  refine ⟨?_, ?_, ?_⟩
  · simp [AttnLaw, judgePins]
  · simp only [LampLaw, judgePins, Bool.and_eq_true, Bool.not_eq_true', lit]; rfl
  · simp only [LampLaw, judgePins, Bool.and_eq_true, Bool.not_eq_true', lit]; rfl

/-! ## A notice produced (R153) -/

theorem pushNotice_joins {s : State} (h : s.notices.length < Config.queueLimit) (k : NoticeKind) (src : Source)
    (d : List Byte) :
    pushNotice k src d s = { s with notices := s.notices ++ [⟨k, src, padTo 6 0 d, s.blockCounter⟩] } := by
  simp [pushNotice, h]

theorem pushNotice_lost {s : State} (h : ¬s.notices.length < Config.queueLimit) (k : NoticeKind) (src : Source)
    (d : List Byte) : pushNotice k src d s = { s with missed := s.missed ||| (1#32 <<< src.code) } := by
  simp [pushNotice, h]

/-- A notice changes the queue or the missed set and nothing else. -/
theorem pushNotice_eq (k : NoticeKind) (src : Source) (d : List Byte) (s : State) :
    pushNotice k src d s =
      { s with notices := (pushNotice k src d s).notices, missed := (pushNotice k src d s).missed } := by
  unfold pushNotice; split <;> rfl

theorem pushNotice_queueLaw {s : State} (h : QueueLaw s) (k : NoticeKind) (src : Source) (d : List Byte) :
    QueueLaw (pushNotice k src d s) := by
  unfold pushNotice; split
  · simp only [QueueLaw, List.length_append, List.length_singleton]; omega
  · exact h

@[simp] theorem pushNotice_feed (k : NoticeKind) (src : Source) (d : List Byte) (s : State) (f : FeedId) :
    (pushNotice k src d s).feed f = s.feed f := by rw [pushNotice_eq]; rfl

@[simp] theorem pushNotice_prog (k : NoticeKind) (src : Source) (d : List Byte) (s : State) (p : ProgId) :
    (pushNotice k src d s).prog p = s.prog p := by rw [pushNotice_eq]; rfl

@[simp] theorem pushNotice_entry (k : NoticeKind) (src : Source) (d : List Byte) (s : State) (e : EntryId) :
    (pushNotice k src d s).entry e = s.entry e := by rw [pushNotice_eq]; rfl

@[simp] theorem pushNotice_cond (k : NoticeKind) (src : Source) (d : List Byte) (s : State) (e : EntryId) :
    (pushNotice k src d s).cond e = s.cond e := by rw [pushNotice_eq]; rfl

/-! ## The sample memory -/

theorem Memory.wfFrom_mono {a b : Nat} (h : a ≤ b) : ∀ {m : Memory}, Memory.wfFrom b m = true → Memory.wfFrom a m = true
  | [], _ => rfl
  | (c, v) :: m, hm => by
    simp only [Memory.wfFrom, Bool.and_eq_true, decide_eq_true_eq] at hm ⊢
    exact ⟨⟨Nat.le_trans h hm.1.1, hm.1.2⟩, hm.2⟩

/-- A write keeps the canonical form above any bound at or below its address. -/
theorem Memory.write_wfFrom {a : Nat} {v : Rat} :
    ∀ {m : Memory} {least : Nat}, least ≤ a → Memory.wfFrom least m = true →
      Memory.wfFrom least (Memory.write a v m) = true
  | [], least, ha, _ => by
    unfold Memory.write; split
    · rfl
    · simp [Memory.wfFrom, *]
  | (b, w) :: m, least, ha, hm => by
    simp only [Memory.wfFrom, Bool.and_eq_true, decide_eq_true_eq] at hm
    obtain ⟨⟨hb, hw⟩, hm⟩ := hm
    unfold Memory.write; split
    · split
      · simp [Memory.wfFrom, *]
      · simp only [Memory.wfFrom, Bool.and_eq_true, decide_eq_true_eq]
        exact ⟨⟨ha, ‹_›⟩, ⟨by omega, hw⟩, hm⟩
    · split
      · subst b; split
        · exact Memory.wfFrom_mono (by omega) hm
        · simp only [Memory.wfFrom, Bool.and_eq_true, decide_eq_true_eq]
          exact ⟨⟨ha, ‹_›⟩, hm⟩
      · simp only [Memory.wfFrom, Bool.and_eq_true, decide_eq_true_eq]
        exact ⟨⟨hb, hw⟩, Memory.write_wfFrom (by omega) hm⟩

/-- Every write keeps the canonical form. -/
theorem Memory.write_wf {m : Memory} (a : Nat) (v : Rat) (h : m.wf = true) : (Memory.write a v m).wf = true :=
  Memory.write_wfFrom (Nat.zero_le a) h

/-- An address below every listed one reads as 0. -/
theorem Memory.read_below {a : Nat} : ∀ {m : Memory} {least : Nat}, a < least → Memory.wfFrom least m = true → m.read a = 0
  | [], _, _, _ => rfl
  | (b, v) :: m, least, ha, hm => by
    simp only [Memory.wfFrom, Bool.and_eq_true, decide_eq_true_eq] at hm
    simp only [Memory.read, if_neg (show a ≠ b by omega)]
    exact Memory.read_below (by omega) hm.2

end Sys2Proof.Machine
end

