-- ==== Sys2Proof/Laws/Alarm.lean ====
section
/-! SUPPORT. What the alarm cascade can do: the fields that conditions, alarm entries, feed health and the Failover
Controller's triggers leave as they stood (R62 to R77, R131 to R140). One relation says it once for every operation of
Flags.lean and Failover.lean. -/
namespace Sys2Proof.Machine

/-- The fields that only commands of the line, the clock, the pool and the resets change. -/
structure Quiet (s t : State) : Prop where
  pending : t.pending = s.pending
  monitor : t.monitor = s.monitor
  freePages : t.freePages = s.freePages
  store : t.store = s.store
  blockCounter : t.blockCounter = s.blockCounter
  rx : t.rx = s.rx
  reply : t.reply = s.reply
  restart : t.restart = s.restart
  unitAddr : t.unitAddr = s.unitAddr
  baud : t.baud = s.baud
  resetCause : t.resetCause = s.resetCause
  inReset : t.inReset = s.inReset
  attn : t.attn = s.attn
  lampMajor : t.lampMajor = s.lampMajor
  lampMinor : t.lampMinor = s.lampMinor
  ports : t.ports = s.ports
  tick : t.tick = s.tick
  sampleInBlock : t.sampleInBlock = s.sampleInBlock
  freeCount : t.freeCount = s.freeCount

@[refl] theorem Quiet.refl (s : State) : Quiet s s := by constructor <;> rfl

theorem Quiet.trans {a b c : State} (h : Quiet a b) (g : Quiet b c) : Quiet a c where
  pending := g.pending.trans h.pending
  monitor := g.monitor.trans h.monitor
  freePages := g.freePages.trans h.freePages
  store := g.store.trans h.store
  blockCounter := g.blockCounter.trans h.blockCounter
  rx := g.rx.trans h.rx
  reply := g.reply.trans h.reply
  restart := g.restart.trans h.restart
  unitAddr := g.unitAddr.trans h.unitAddr
  baud := g.baud.trans h.baud
  resetCause := g.resetCause.trans h.resetCause
  inReset := g.inReset.trans h.inReset
  attn := g.attn.trans h.attn
  lampMajor := g.lampMajor.trans h.lampMajor
  lampMinor := g.lampMinor.trans h.lampMinor
  ports := g.ports.trans h.ports
  tick := g.tick.trans h.tick
  sampleInBlock := g.sampleInBlock.trans h.sampleInBlock
  freeCount := g.freeCount.trans h.freeCount

theorem Quiet.setFeed (s : State) (f : FeedId) (x : Feed) : Quiet s (s.setFeed f x) := by constructor <;> rfl

theorem Quiet.setProg (s : State) (p : ProgId) (x : Program) : Quiet s (s.setProg p x) := by constructor <;> rfl

theorem Quiet.setEntry (s : State) (e : EntryId) (x : Entry) : Quiet s (s.setEntry e x) := by constructor <;> rfl

theorem Quiet.setCondBit (s : State) (e : EntryId) (v : Bool) : Quiet s (s.setCondBit e v) := by constructor <;> rfl

theorem Quiet.pushNotice (k : NoticeKind) (src : Source) (d : List Byte) (s : State) :
    Quiet s (Machine.pushNotice k src d s) := by
  unfold Machine.pushNotice; split <;> constructor <;> rfl

/-- What the alarm cascade can do to a state. -/
structure AlarmEffect (s t : State) : Prop where
  quiet : Quiet s t
  /-- of a feed, only its health changes -/
  feed : ∀ f, t.feed f = { s.feed f with healthy := (t.feed f).healthy }
  /-- of a program, only its swap, its marks and its return timer change -/
  prog : ∀ p, t.prog p =
    { s.prog p with
      swap := (t.prog p).swap, marks := (t.prog p).marks, returnTimer := (t.prog p).returnTimer
      returnFell := (t.prog p).returnFell }
  /-- a program that is not RUNNING is left whole -/
  still : ∀ p, (s.prog p).running = false → t.prog p = s.prog p
  /-- no entry's configuration changes -/
  config : ∀ e, (t.entry e).config = (s.entry e).config
  /-- of the conditions, only NO_SOURCE of a program changes -/
  cond : ∀ e, (∀ p, e ≠ progEntry p .noSource) → t.cond e = s.cond e
  queue : QueueLaw s → QueueLaw t

@[refl] theorem AlarmEffect.refl (s : State) : AlarmEffect s s where
  quiet := .refl s
  feed _ := rfl
  prog _ := rfl
  still _ _ := rfl
  config _ := rfl
  cond _ _ := rfl
  queue h := h

theorem AlarmEffect.trans {a b c : State} (h : AlarmEffect a b) (g : AlarmEffect b c) : AlarmEffect a c where
  quiet := h.quiet.trans g.quiet
  feed f := by rw [g.feed f, h.feed f]
  prog p := by rw [g.prog p, h.prog p]
  still p hp := by
    rw [g.still p (by rw [h.still p hp]; exact hp), h.still p hp]
  config e := (g.config e).trans (h.config e)
  cond e he := (g.cond e he).trans (h.cond e he)
  queue hq := g.queue (h.queue hq)

theorem AlarmEffect.forEach {α : Type} {f : α → State → State} (h : ∀ x s, AlarmEffect s (f x s)) (l : List α)
    (s : State) : AlarmEffect s (Machine.forEach l f s) :=
  forEach_relation .refl .trans h l s

/-! ## Entries -/

/-- An entry's run state is rewritten. -/
theorem AlarmEffect.setEntry {s : State} {e : EntryId} {x : Entry} (h : x.config = (s.entry e).config) :
    AlarmEffect s (s.setEntry e x) where
  quiet := .setEntry s e x
  feed _ := rfl
  prog _ := rfl
  still _ _ := rfl
  config d := by rw [State.setEntry_entry]; split <;> simp [*]
  cond _ _ := rfl
  queue h := h

theorem AlarmEffect.pushNotice (k : NoticeKind) (src : Source) (d : List Byte) (s : State) :
    AlarmEffect s (Machine.pushNotice k src d s) where
  quiet := .pushNotice k src d s
  feed f := by simp
  prog p := by simp
  still p _ := by simp
  config e := by simp
  cond e _ := by simp
  queue h := pushNotice_queueLaw h k src d

theorem AlarmEffect.entryNotice (k : NoticeKind) (e : EntryId) (s : State) : AlarmEffect s (entryNotice k e s) := by
  unfold Machine.entryNotice; dsimp only; split
  · exact .refl s
  · exact .pushNotice ..

theorem AlarmEffect.raiseEntry (e : EntryId) (s : State) : AlarmEffect s (raiseEntry e s) :=
  (AlarmEffect.setEntry (x := (s.entry e).raised s.blockCounter) rfl).trans (.entryNotice ..)

theorem AlarmEffect.releaseEntry (e : EntryId) (s : State) : AlarmEffect s (releaseEntry e s) :=
  (AlarmEffect.setEntry (x := (s.entry e).cleared) rfl).trans (.entryNotice ..)

theorem AlarmEffect.conditionTrue (e : EntryId) (s : State) : AlarmEffect s (conditionTrue e s).1 := by
  unfold Machine.conditionTrue; dsimp only; split
  · split
    · exact .raiseEntry e s
    · exact .setEntry rfl
  · exact .setEntry rfl
  · exact .refl s
  · exact .refl s

theorem AlarmEffect.conditionFalse (e : EntryId) (s : State) : AlarmEffect s (conditionFalse e s).1 := by
  unfold Machine.conditionFalse; dsimp only; split
  · exact .setEntry rfl
  · split
    · exact .releaseEntry e s
    · exact .setEntry rfl
  · exact .refl s
  · exact .refl s

theorem State.setCondBit_same {s : State} {e : EntryId} {v : Bool} (h : s.cond e = v) : s.setCondBit e v = s := by
  subst h; simp [State.setCondBit, State.cond]

/-- A condition takes its value; its entry follows. -/
theorem AlarmEffect.follow (e : EntryId) (v : Bool) (s : State) : AlarmEffect (s.setCondBit e v) (follow e v s).1 := by
  unfold Machine.follow; split
  · rw [State.setCondBit_same ‹_›]
  · split
    · exact .conditionTrue ..
    · exact .conditionFalse ..

/-! ## Failover -/

/-- A RUNNING program's swap, marks and return timer are rewritten. -/
theorem AlarmEffect.setProg {s : State} {p : ProgId} {x : Program}
    (h : x = { s.prog p with swap := x.swap, marks := x.marks, returnTimer := x.returnTimer, returnFell := x.returnFell })
    (hs : (s.prog p).running = false → x = s.prog p) : AlarmEffect s (s.setProg p x) where
  quiet := .setProg s p x
  feed _ := rfl
  prog q := by
    rw [State.setProg_prog]; split
    · subst q; exact h
    · rfl
  still q hq := by
    rw [State.setProg_prog]; split
    · subst q; exact hs hq
    · rfl
  config _ := rfl
  cond _ _ := rfl
  queue h := h

theorem AlarmEffect.judgeNoSource (p : ProgId) (s : State) : AlarmEffect s (judgeNoSource p s) := by
  have h := AlarmEffect.follow (progEntry p .noSource) (noSourceTest s (s.prog p)) s
  exact
    { quiet := (Quiet.setCondBit ..).trans h.quiet
      feed := h.feed
      prog := h.prog
      still := h.still
      config := h.config
      cond := fun e he => by
        rw [Machine.judgeNoSource, followQuiet_eq, h.cond e he, State.setCondBit_cond_ne (he p)]
      queue := h.queue }

theorem AlarmEffect.judgeReturnSet (p : ProgId) (s : State) : AlarmEffect s (judgeReturnSet p s) := by
  unfold Machine.judgeReturnSet; split
  · next h => exact .setProg rfl fun hr => by simp [hr] at h
  · exact .refl s

theorem Program.triggered_eq (g : Program) (c : SwapCause) :
    g.triggered c = { g with swap := (g.triggered c).swap, returnFell := (g.triggered c).returnFell } := by
  unfold Program.triggered; split <;> rfl

theorem AlarmEffect.triggered {s : State} {p : ProgId} (h : (s.prog p).running = true) (c : SwapCause) :
    AlarmEffect s (s.onProg p (·.triggered c)) :=
  .setProg (by dsimp only; rw [Program.triggered_eq]) fun hr => by simp [h] at hr

theorem AlarmEffect.noSourceRelease (p : ProgId) (was : Bool) (s : State) : AlarmEffect s (noSourceRelease p was s) := by
  unfold Machine.noSourceRelease; dsimp only; split
  · next h => exact .triggered (by simp_all) _
  · exact .refl s

theorem AlarmEffect.eligibilityEvent (p : ProgId) (s : State) : AlarmEffect s (eligibilityEvent p s) := by
  unfold Machine.eligibilityEvent; split
  · exact ((AlarmEffect.judgeNoSource p s).trans (.judgeReturnSet ..)).trans (.noSourceRelease ..)
  · exact .refl s

theorem AlarmEffect.feedTrigger (f : FeedId) (b : Bool) (p : ProgId) (s : State) : AlarmEffect s (feedTrigger f b p s) := by
  unfold Machine.feedTrigger; dsimp only; split
  · next h => exact .triggered (by simp_all) _
  · exact .refl s

theorem AlarmEffect.healthReaches (f : FeedId) (p : ProgId) (s : State) : AlarmEffect s (healthReaches f p s) := by
  have h : AlarmEffect s (if (s.prog p).namesFeed f then Machine.eligibilityEvent p s else s) := by
    split
    · exact .eligibilityEvent p s
    · exact .refl s
  unfold Machine.healthReaches; dsimp only; split
  · exact h
  · exact h.trans (.feedTrigger ..)

theorem AlarmEffect.setHealthy (s : State) (f : FeedId) (v : Bool) :
    AlarmEffect s (s.setFeed f { s.feed f with healthy := v }) where
  quiet := .setFeed ..
  feed g := by
    rw [State.setFeed_feed]; split
    · subst g; rfl
    · rfl
  prog _ := rfl
  still _ _ := rfl
  config _ := rfl
  cond _ _ := rfl
  queue h := h

theorem AlarmEffect.judgeHealth (f : FeedId) (s : State) : AlarmEffect s (judgeHealth f s) := by
  unfold Machine.judgeHealth; dsimp only; split
  · exact .refl s
  · exact (AlarmEffect.setHealthy s f _).trans (.forEach (fun p t => .healthReaches f p t) _ _)

theorem AlarmEffect.setMark {s : State} {p : ProgId} (h : (s.prog p).running = true) (r : Rank) (v : Bool) :
    AlarmEffect s (setMark p r v s) :=
  (AlarmEffect.setProg rfl fun hr => by simp [h] at hr).trans (.eligibilityEvent ..)

theorem AlarmEffect.markSuspect {s : State} {p : ProgId} (h : (s.prog p).running = true) (r : Option Rank) :
    AlarmEffect s (markSuspect p r s) := by
  unfold Machine.markSuspect; split
  · exact .refl s
  · exact .setMark h _ _

/-- The cascade does not change which programs run. -/
theorem AlarmEffect.running {s t : State} (h : AlarmEffect s t) (p : ProgId) : (t.prog p).running = (s.prog p).running := by
  rw [h.prog p]; rfl

theorem AlarmEffect.active {s t : State} (h : AlarmEffect s t) (p : ProgId) : (t.prog p).active = (s.prog p).active := by
  rw [h.prog p]; rfl

theorem Program.silencedFadeOut_eq (g : Program) :
    g.silencedFadeOut = { g with swap := g.silencedFadeOut.swap } := by
  unfold Program.silencedFadeOut; split <;> rfl

theorem AlarmEffect.startFadeOut {s : State} {p : ProgId} (h : (s.prog p).running = true) (c : SwapCause)
    (r : Option Rank) : AlarmEffect s (s.onProg p (·.startFadeOut c r)) :=
  .setProg rfl fun hr => by simp [h] at hr

theorem AlarmEffect.silenceTrigger (p : ProgId) (s : State) : AlarmEffect s (silenceTrigger p s) := by
  unfold Machine.silenceTrigger; dsimp only; split
  · exact .refl s
  · next hn =>
    have hr : (s.prog p).running = true := by simpa using hn
    have hm (r) : AlarmEffect s (Machine.markSuspect p r s) := .markSuspect hr r
    have hr' (r) : ((Machine.markSuspect p r s).prog p).running = true := by rw [(hm r).running]; exact hr
    split
    · split
      · exact hm _
      · exact (hm _).trans (.startFadeOut (hr' _) _ _)
    · exact (hm _).trans
        (.setProg (by dsimp only; rw [Program.silencedFadeOut_eq]) fun h => by simp [hr'] at h)
    · split
      · exact (hm _).trans (.startFadeOut (hr' _) _ _)
      · exact hm _

theorem AlarmEffect.handOver (e : EntryId) (h : Handover) (s : State) : AlarmEffect s (handOver e h s) := by
  unfold Machine.handOver; split
  · split
    · exact .refl s
    · exact .judgeHealth ..
    · split
      · exact .silenceTrigger ..
      · exact .refl s
    · exact .refl s
    · exact .refl s
  · exact .refl s

/-- A condition takes its value, its entry follows, and what it hands over is acted on: beyond the condition's own bit
this is an effect of the cascade. -/
theorem setCond_effect (e : EntryId) (v : Bool) (s : State) : AlarmEffect (s.setCondBit e v) (setCond e v s) :=
  (AlarmEffect.follow e v s).trans (.handOver ..)

theorem setFeedCond_effect (f : FeedId) (k : FeedCond) (v : Bool) (s : State) :
    AlarmEffect (s.setCondBit (feedEntry f k) v) (setFeedCond f k v s) := setCond_effect ..

theorem setProgCond_effect (p : ProgId) (k : ProgCond) (v : Bool) (s : State) :
    AlarmEffect (s.setCondBit (progEntry p k) v) (setProgCond p k v s) := setCond_effect ..

theorem AlarmEffect.expireRaise (e : EntryId) (s : State) : AlarmEffect s (expireRaise e s) := by
  unfold Machine.expireRaise; split
  · exact (AlarmEffect.raiseEntry e s).trans (.handOver ..)
  · exact .refl s

theorem AlarmEffect.expireClear (e : EntryId) (s : State) : AlarmEffect s (expireClear e s) := by
  unfold Machine.expireClear; split
  · exact (AlarmEffect.releaseEntry e s).trans (.handOver ..)
  · exact .refl s

/-! ## Identifiers (R131) -/

theorem feedEntry_inj {f g : FeedId} {k l : FeedCond} (h : feedEntry f k = feedEntry g l) : f = g ∧ k = l := by
  have h := congrArg Fin.val h
  have hk := k.num_lt
  have hl := l.num_lt
  simp only [feedEntry] at h
  refine ⟨Fin.ext (by omega), ?_⟩
  have hn : k.num = l.num := by omega
  cases k <;> cases l <;> first | rfl | simp [FeedCond.num] at hn

theorem progEntry_inj {p q : ProgId} {k l : ProgCond} (h : progEntry p k = progEntry q l) : p = q ∧ k = l := by
  have h := congrArg Fin.val h
  have hk := k.num_lt
  have hl := l.num_lt
  simp only [progEntry] at h
  refine ⟨Fin.ext (by omega), ?_⟩
  have hn : k.num = l.num := by omega
  cases k <;> cases l <;> first | rfl | simp [ProgCond.num] at hn

theorem feedEntry_ne_progEntry (f : FeedId) (k : FeedCond) (p : ProgId) (l : ProgCond) : feedEntry f k ≠ progEntry p l := by
  intro h
  have h := congrArg Fin.val h
  have hk := k.num_lt
  simp only [feedEntry, progEntry] at h
  omega

end Sys2Proof.Machine
end

