-- ==== Sys2Proof/Laws/Program.lean ====
section
/-! SUPPORT. What one alarm entry, and the work of one program, can do to a state: `EntryEffect` says it of a condition
and its entry (R131 to R138), `ProgEffect` of the delay, the SWITCH, the marks and the level conditions of a program
(R63 to R78, R109, R110, R118 to R127). -/
namespace Sys2Proof.Machine

/-! ## Updates of one record twice -/

@[simp] theorem State.setFeed_setFeed (s : State) (f : FeedId) (x y : Feed) :
    (s.setFeed f x).setFeed f y = s.setFeed f y := by simp [State.setFeed]

@[simp] theorem State.setProg_setProg (s : State) (p : ProgId) (x y : Program) :
    (s.setProg p x).setProg p y = s.setProg p y := by simp [State.setProg]

@[simp] theorem State.setEntry_setEntry (s : State) (e : EntryId) (x y : Entry) :
    (s.setEntry e x).setEntry e y = s.setEntry e y := by simp [State.setEntry]

@[simp] theorem State.setCondBit_setCondBit (s : State) (e : EntryId) (v w : Bool) :
    (s.setCondBit e v).setCondBit e w = s.setCondBit e w := by simp [State.setCondBit]

/-! ## The entry alone -/

/-- What the entry of a condition can do to a state by itself: its own record, and a notice. -/
structure EntryEffect (e : EntryId) (s t : State) : Prop where
  quiet : Quiet s t
  feeds : t.feeds = s.feeds
  progs : t.progs = s.progs
  conds : t.conds = s.conds
  entry : ∀ d, d ≠ e → t.entry d = s.entry d
  config : (t.entry e).config = (s.entry e).config

@[refl] theorem EntryEffect.refl (e : EntryId) (s : State) : EntryEffect e s s :=
  ⟨.refl s, rfl, rfl, rfl, fun _ _ => rfl, rfl⟩

theorem EntryEffect.trans {e : EntryId} {a b c : State} (h : EntryEffect e a b) (g : EntryEffect e b c) :
    EntryEffect e a c where
  quiet := h.quiet.trans g.quiet
  feeds := g.feeds.trans h.feeds
  progs := g.progs.trans h.progs
  conds := g.conds.trans h.conds
  entry d hd := (g.entry d hd).trans (h.entry d hd)
  config := g.config.trans h.config

theorem EntryEffect.setEntry {e : EntryId} {s : State} {x : Entry} (h : x.config = (s.entry e).config) :
    EntryEffect e s (s.setEntry e x) where
  quiet := .setEntry s e x
  feeds := rfl
  progs := rfl
  conds := rfl
  entry d hd := State.setEntry_entry_ne hd s x
  config := by simp [h]

theorem EntryEffect.pushNotice (e : EntryId) (k : NoticeKind) (src : Source) (d : List Byte) (s : State) :
    EntryEffect e s (pushNotice k src d s) where
  quiet := .pushNotice k src d s
  feeds := by unfold Machine.pushNotice; split <;> rfl
  progs := by unfold Machine.pushNotice; split <;> rfl
  conds := by unfold Machine.pushNotice; split <;> rfl
  entry _ _ := pushNotice_entry k src d s _
  config := by simp

theorem EntryEffect.entryNotice (k : NoticeKind) (e : EntryId) (s : State) : EntryEffect e s (entryNotice k e s) := by
  unfold Machine.entryNotice
  dsimp only
  split
  · exact .refl e s
  · exact .pushNotice ..

theorem EntryEffect.raiseEntry (e : EntryId) (s : State) : EntryEffect e s (raiseEntry e s) :=
  (EntryEffect.setEntry (x := (s.entry e).raised s.blockCounter) rfl).trans (.entryNotice ..)

theorem EntryEffect.releaseEntry (e : EntryId) (s : State) : EntryEffect e s (releaseEntry e s) :=
  (EntryEffect.setEntry (x := (s.entry e).cleared) rfl).trans (.entryNotice ..)

theorem EntryEffect.conditionTrue (e : EntryId) (s : State) : EntryEffect e s (conditionTrue e s).1 := by
  unfold Machine.conditionTrue
  dsimp only
  split
  · split
    · exact .raiseEntry e s
    · exact .setEntry rfl
  · exact .setEntry rfl
  all_goals exact .refl e s

theorem EntryEffect.conditionFalse (e : EntryId) (s : State) : EntryEffect e s (conditionFalse e s).1 := by
  unfold Machine.conditionFalse
  dsimp only
  split
  · exact .setEntry rfl
  · split
    · exact .releaseEntry e s
    · exact .setEntry rfl
  all_goals exact .refl e s

/-- A condition that takes a value: its bit, and what its own entry does. -/
theorem EntryEffect.follow (e : EntryId) (v : Bool) (s : State) : EntryEffect e (s.setCondBit e v) (follow e v s).1 := by
  unfold Machine.follow
  split
  · rename_i h
    rw [State.setCondBit_same h]
  · split
    · exact .conditionTrue ..
    · exact .conditionFalse ..

/-- The condition has the value it was given. -/
theorem follow_cond (e : EntryId) (v : Bool) (s : State) (d : EntryId) :
    (follow e v s).1.cond d = if d = e then v else s.cond d := by
  have h := (EntryEffect.follow e v s).conds
  have : (follow e v s).1.cond d = (s.setCondBit e v).cond d := by simp [State.cond, h]
  rw [this]
  split
  · rename_i h; subst h; simp
  · rename_i h; exact State.setCondBit_cond_ne h s v

/-- A handover of nothing does nothing. -/
@[simp] theorem handOver_none (e : EntryId) (s : State) : handOver e .none s = s := by
  unfold handOver; split <;> rfl

/-- An entry whose action is not FAILOVER hands nothing over. -/
theorem handOver_inert {e : EntryId} {s : State} (h : (s.entry e).config.action ≠ .failover) (o : Handover) :
    handOver e o s = s := by
  unfold handOver; simp [h]

theorem entrySource_progEntry (p : ProgId) (k : ProgCond) : entrySource (progEntry p k) = .program p := by
  revert p; cases k <;> decide

theorem entrySource_feedEntry (f : FeedId) (k : FeedCond) : entrySource (feedEntry f k) = .feed f := by
  revert f; cases k <;> decide

/-- A program's condition other than SILENCE reaches its own entry only. -/
theorem setProgCond_follow {k : ProgCond} (h : k ≠ .silence) (p : ProgId) (v : Bool) (s : State) :
    setProgCond p k v s = (follow (progEntry p k) v s).1 := by
  have hne : progEntry p k ≠ progEntry p .silence := fun g => h (progEntry_inj g).2
  unfold setProgCond setCond handOver
  rw [entrySource_progEntry]
  split
  · cases (follow (progEntry p k) v s).2 <;> simp [hne]
  · rfl

/-- SILENCE made false reaches its own entry only. -/
theorem setSilence_false (p : ProgId) (s : State) :
    setProgCond p .silence false s = (follow (progEntry p .silence) false s).1 := by
  have hn : (follow (progEntry p .silence) false s).2 ≠ .raised := by
    unfold follow
    split
    · simp
    · simp only [Bool.false_eq_true, if_false]
      unfold conditionFalse
      dsimp only
      repeat' split
      all_goals simp
  unfold setProgCond setCond handOver
  rw [entrySource_progEntry]
  split
  · revert hn
    cases (follow (progEntry p .silence) false s).2 <;> simp
  · rfl

/-! ## One program -/

/-- What the work of one program can do to a state: its own record, its own conditions and their entries, and notices. -/
structure ProgEffect (p : ProgId) (s t : State) : Prop where
  quiet : Quiet s t
  feeds : t.feeds = s.feeds
  prog : ∀ q, q ≠ p → t.prog q = s.prog q
  cond : ∀ e, (∀ k, e ≠ progEntry p k) → t.cond e = s.cond e
  entry : ∀ e, (∀ k, e ≠ progEntry p k) → t.entry e = s.entry e
  config : ∀ e, (t.entry e).config = (s.entry e).config

@[refl] theorem ProgEffect.refl (p : ProgId) (s : State) : ProgEffect p s s :=
  ⟨.refl s, rfl, fun _ _ => rfl, fun _ _ => rfl, fun _ _ => rfl, fun _ => rfl⟩

theorem ProgEffect.trans {p : ProgId} {a b c : State} (h : ProgEffect p a b) (g : ProgEffect p b c) :
    ProgEffect p a c where
  quiet := h.quiet.trans g.quiet
  feeds := g.feeds.trans h.feeds
  prog q hq := (g.prog q hq).trans (h.prog q hq)
  cond e he := (g.cond e he).trans (h.cond e he)
  entry e he := (g.entry e he).trans (h.entry e he)
  config e := (g.config e).trans (h.config e)

theorem ProgEffect.setProg (p : ProgId) (s : State) (x : Program) : ProgEffect p s (s.setProg p x) where
  quiet := .setProg s p x
  feeds := rfl
  prog _ hq := State.setProg_prog_ne hq s x
  cond _ _ := rfl
  entry _ _ := rfl
  config _ := rfl

theorem ProgEffect.onProg (p : ProgId) (s : State) (g : Program → Program) : ProgEffect p s (s.onProg p g) :=
  .setProg p s _

theorem ProgEffect.pushNotice (p : ProgId) (k : NoticeKind) (src : Source) (d : List Byte) (s : State) :
    ProgEffect p s (pushNotice k src d s) where
  quiet := .pushNotice k src d s
  feeds := (EntryEffect.pushNotice 0 k src d s).feeds
  prog _ _ := pushNotice_prog k src d s _
  cond _ _ := pushNotice_cond k src d s _
  entry _ _ := pushNotice_entry k src d s _
  config _ := by simp

/-- A condition of the program takes a value, and its entry follows. -/
theorem ProgEffect.follow (p : ProgId) (k : ProgCond) (v : Bool) (s : State) :
    ProgEffect p s (follow (progEntry p k) v s).1 where
  quiet := (Quiet.setCondBit s _ v).trans (EntryEffect.follow ..).quiet
  feeds := (EntryEffect.follow ..).feeds
  prog q _ := by simp [State.prog, (EntryEffect.follow (progEntry p k) v s).progs, State.setCondBit]
  cond e he := by simp [follow_cond, he k]
  entry e he := by rw [(EntryEffect.follow (progEntry p k) v s).entry e (he k)]; simp
  config e := by
    by_cases h : e = progEntry p k
    · subst h; rw [(EntryEffect.follow (progEntry p k) v s).config]; simp
    · rw [(EntryEffect.follow (progEntry p k) v s).entry e h]; simp

/-- The program's own record is left as it stands by a condition. -/
theorem follow_prog (e : EntryId) (v : Bool) (s : State) (q : ProgId) : (follow e v s).1.prog q = s.prog q := by
  simp [State.prog, (EntryEffect.follow e v s).progs, State.setCondBit]

theorem ProgEffect.setProgCond {k : ProgCond} (h : k ≠ .silence) (p : ProgId) (v : Bool) (s : State) :
    ProgEffect p s (setProgCond p k v s) := by
  rw [setProgCond_follow h]; exact .follow p k v s

theorem ProgEffect.setSilence_false (p : ProgId) (s : State) : ProgEffect p s (Machine.setProgCond p .silence false s) := by
  rw [Machine.setSilence_false]; exact .follow p .silence false s

theorem setProgCond_prog {k : ProgCond} (h : k ≠ .silence) (p q : ProgId) (v : Bool) (s : State) :
    (setProgCond p k v s).prog q = s.prog q := by
  rw [setProgCond_follow h, follow_prog]

theorem setProgCond_progCond {k : ProgCond} (h : k ≠ .silence) (p q : ProgId) (v : Bool) (j : ProgCond) (s : State) :
    (setProgCond p k v s).progCond q j = if q = p ∧ j = k then v else s.progCond q j := by
  rw [setProgCond_follow h]
  unfold State.progCond
  rw [follow_cond]
  by_cases g : q = p ∧ j = k
  · obtain ⟨rfl, rfl⟩ := g; simp
  · have : progEntry q j ≠ progEntry p k := fun e => g (progEntry_inj e)
    simp [g, this]

/-! ## Delay -/

theorem ProgEffect.judgeLatency (p : ProgId) (s : State) : ProgEffect p s (judgeLatency p s) := by
  unfold Machine.judgeLatency
  exact (ProgEffect.setProgCond (by decide) ..).trans (.setProgCond (by decide) ..)

/-- Judging the latency conditions leaves every program record as it stands. -/
theorem judgeLatency_prog (p q : ProgId) (s : State) : (judgeLatency p s).prog q = s.prog q := by
  unfold Machine.judgeLatency
  rw [setProgCond_prog (by decide), setProgCond_prog (by decide)]

theorem ProgEffect.settleNotice (p : ProgId) (s : State) : ProgEffect p s (settleNotice p s) := .pushNotice ..

theorem ProgEffect.moveTarget (p : ProgId) (s : State) : ProgEffect p s (moveTarget p s) := by
  unfold Machine.moveTarget
  dsimp only
  split
  · exact .setProg ..
  · split
    · split
      · exact (ProgEffect.setProg ..).trans (.settleNotice ..)
      · exact .setProg ..
    · split <;> exact .setProg ..

theorem ProgEffect.recomputeDelay (p : ProgId) (s : State) : ProgEffect p s (recomputeDelay p s) := by
  unfold Machine.recomputeDelay
  split
  · exact (ProgEffect.judgeLatency ..).trans (.moveTarget ..)
  · exact .refl p s

theorem ProgEffect.startDelay (p : ProgId) (s : State) : ProgEffect p s (startDelay p s) :=
  (ProgEffect.judgeLatency ..).trans (.setProg ..)

theorem ProgEffect.slewComplete (p : ProgId) (s : State) : ProgEffect p s (slewComplete p s) := by
  unfold Machine.slewComplete
  dsimp only
  split <;> split
  · exact (ProgEffect.setProg ..).trans (.settleNotice ..)
  · exact .setProg ..
  · exact (ProgEffect.setProg ..).trans (.settleNotice ..)
  · exact .setProg ..

theorem ProgEffect.cutInEnd (p : ProgId) (s : State) : ProgEffect p s (cutInEnd p s) := by
  unfold Machine.cutInEnd
  dsimp only
  split
  · exact (ProgEffect.setProg ..).trans (.settleNotice ..)
  · exact .setProg ..

/-! ## Sources and the SWITCH -/

theorem ProgEffect.judgeNoSource (p : ProgId) (s : State) : ProgEffect p s (judgeNoSource p s) := .follow ..

theorem ProgEffect.judgeOnBackup (p : ProgId) (s : State) : ProgEffect p s (judgeOnBackup p s) :=
  .setProgCond (by decide) ..

theorem ProgEffect.eligibilityEvent (p : ProgId) (s : State) : ProgEffect p s (eligibilityEvent p s) := by
  unfold Machine.eligibilityEvent
  split
  · refine (ProgEffect.judgeNoSource p s).trans (.trans (b := judgeReturnSet p (Machine.judgeNoSource p s)) ?_ ?_)
    · unfold judgeReturnSet; split
      · exact .onProg ..
      · exact .refl ..
    · unfold noSourceRelease; dsimp only; split
      · exact .onProg ..
      · exact .refl ..
  · exact .refl p s

theorem ProgEffect.setMark (p : ProgId) (r : Rank) (v : Bool) (s : State) : ProgEffect p s (setMark p r v s) :=
  (ProgEffect.onProg ..).trans (.eligibilityEvent ..)

theorem ProgEffect.markSuspect (p : ProgId) (r : Option Rank) (s : State) : ProgEffect p s (markSuspect p r s) := by
  cases r
  · exact .refl p s
  · exact .setMark ..

theorem ProgEffect.keepSet (p : ProgId) (c : SwapCause) (s : State) : ProgEffect p s (keepSet p c s) :=
  (ProgEffect.onProg ..).trans (.judgeNoSource ..)

theorem ProgEffect.changeSet (p : ProgId) (l : List Rank) (c : SwapCause) (s : State) :
    ProgEffect p s (changeSet p l c s) := by
  unfold Machine.changeSet sourceChanged
  dsimp only
  exact .trans (.onProg p s _) (.trans (.recomputeDelay p _) (.trans (.judgeOnBackup p _)
    (.trans (.judgeNoSource p _) (.pushNotice p _ _ _ _))))

theorem ProgEffect.failoverSwitch (p : ProgId) (c : SwapCause) (s : State) : ProgEffect p s (failoverSwitch p c s) := by
  unfold Machine.failoverSwitch
  dsimp only
  split
  · exact .keepSet ..
  · split
    · exact .keepSet ..
    · exact .changeSet ..

/-- A SWITCH acts on its own program alone. -/
theorem ProgEffect.swapSwitch (p : ProgId) (s : State) : ProgEffect p s (swapSwitch p s) := by
  unfold Machine.swapSwitch
  split
  · unfold returnSwitch; dsimp only; split
    · exact .changeSet ..
    · exact .failoverSwitch ..
  · split
    · unfold selectSwitch; dsimp only; split
      · exact (ProgEffect.setMark ..).trans (.changeSet ..)
      · exact (ProgEffect.setMark ..).trans (.failoverSwitch ..)
    · exact .failoverSwitch ..
  all_goals exact .failoverSwitch ..

theorem ProgEffect.silenceTrigger (p : ProgId) (s : State) : ProgEffect p s (silenceTrigger p s) := by
  unfold Machine.silenceTrigger
  dsimp only
  split
  · exact .refl p s
  · split
    · split
      · exact .markSuspect ..
      · exact (ProgEffect.markSuspect ..).trans (.onProg ..)
    · exact (ProgEffect.markSuspect ..).trans (.onProg ..)
    · split
      · exact (ProgEffect.markSuspect ..).trans (.onProg ..)
      · exact .markSuspect ..

/-- SILENCE of a program, true or false, acts on its own program alone. -/
theorem ProgEffect.setSilence (p : ProgId) (v : Bool) (s : State) :
    ProgEffect p s (Machine.setProgCond p .silence v s) := by
  unfold Machine.setProgCond setCond handOver
  rw [entrySource_progEntry]
  split
  · split
    · exact .follow ..
    · rename_i h _; cases h
    · rename_i h; cases h
      split
      · exact (ProgEffect.follow ..).trans (.silenceTrigger ..)
      · exact .follow ..
    · exact .follow ..
    · exact .follow ..
  · exact .follow ..

/-! ## Level conditions and the end of a run -/

theorem ProgEffect.judgeLevels (b : Bool) (p : ProgId) (s : State) : ProgEffect p s (judgeLevels b p s) := by
  have ceil (s : State) : ProgEffect p s (judgeCeiling p s) :=
    (ProgEffect.onProg ..).trans (.setProgCond (by decide) ..)
  have level (s : State) : ProgEffect p s (judgeOverLevel p s) := by
    unfold judgeOverLevel; dsimp only; split
    · exact .refl p s
    · exact .setProgCond (by decide) ..
  unfold Machine.judgeLevels
  dsimp only
  split
  · split
    · exact (ceil s).trans (level _)
    · exact ceil s
  · exact .refl p s

end Sys2Proof.Machine
end

