-- ==== Sys2Proof/Laws/Feed.lean ====
section
/-! SUPPORT. What the work of one feed can do to a state (R1 to R37, R58): its own port and converter, the conditions
and the cascade they start, and the delay targets of the programs that use it. -/
namespace Sys2Proof.Machine

/-- Zero frames beyond a filter history make no other history: the interpolator gives the same for both (R32). -/
theorem interpolated_append_zeros (h : List Sample) (n sub : Nat) :
    interpolated (h ++ List.replicate n 0) sub = interpolated h sub := by
  have e : padTo (Config.historyExtra + 1) 0 (h ++ List.replicate n 0) = padTo (Config.historyExtra + 1) (0 : Sample) h := by
    simp only [padTo, List.append_assoc, List.replicate_append_replicate, List.take_append, List.take_replicate]
    congr 2
    omega
  have z : (h ++ List.replicate n (0 : Sample)).all (· == 0) = h.all (· == 0) := by
    simp [List.all_append]
  simp only [interpolated, e, z]

/-- What the work of a feed leaves of a delay record: only the target, the current delay and the operation change. -/
def DelayRec.Kept (d e : DelayRec) : Prop :=
  e = { d with
    dtgt := e.dtgt, dcur := e.dcur, op := e.op, progress := e.progress, dir := e.dir, stepInterval := e.stepInterval }

/-- What the work of a feed leaves of a program: only the swap, the marks, the return timer, the output fade's direction
and the delay operation change. -/
def Program.Kept (g h : Program) : Prop :=
  h = { g with
    swap := h.swap, marks := h.marks, returnTimer := h.returnTimer, returnFell := h.returnFell, outDir := h.outDir
    delay := h.delay } ∧ g.delay.Kept h.delay

theorem Program.Kept.refl (g : Program) : g.Kept g := ⟨rfl, rfl⟩

theorem Program.Kept.trans {a b c : Program} (h : a.Kept b) (g : b.Kept c) : a.Kept c := by
  obtain ⟨h1, h2⟩ := h
  obtain ⟨g1, g2⟩ := g
  unfold DelayRec.Kept at *
  constructor
  · rw [g1, h1]
  · unfold DelayRec.Kept; rw [g2, h2]

/-- A program stays with or without a run. -/
theorem Program.Kept.active {g h : Program} (k : g.Kept h) : h.active = g.active := by
  rw [k.1]; rfl

/-- What the work of one feed can do to a state. -/
structure FeedEffect (f : FeedId) (s t : State) : Prop where
  quiet : Quiet s t
  port : ∀ g, g ≠ f → (t.feed g).port = (s.feed g).port
  conv : ∀ g, g ≠ f → (t.feed g).conv = (s.feed g).conv
  prog : ∀ p, (s.prog p).Kept (t.prog p)
  config : ∀ e, (t.entry e).config = (s.entry e).config

@[refl] theorem FeedEffect.refl (f : FeedId) (s : State) : FeedEffect f s s :=
  ⟨.refl s, fun _ _ => rfl, fun _ _ => rfl, fun _ => .refl _, fun _ => rfl⟩

theorem FeedEffect.trans {f : FeedId} {a b c : State} (h : FeedEffect f a b) (g : FeedEffect f b c) :
    FeedEffect f a c where
  quiet := h.quiet.trans g.quiet
  port x hx := (g.port x hx).trans (h.port x hx)
  conv x hx := (g.conv x hx).trans (h.conv x hx)
  prog p := (h.prog p).trans (g.prog p)
  config e := (g.config e).trans (h.config e)

theorem FeedEffect.forEach {α : Type} {f : FeedId} {g : α → State → State} (h : ∀ x s, FeedEffect f s (g x s))
    (l : List α) (s : State) : FeedEffect f s (forEach l g s) :=
  forEach_relation (fun s => .refl f s) (fun h g => h.trans g) h l s

theorem FeedEffect.setFeed (f : FeedId) (s : State) (x : Feed) : FeedEffect f s (s.setFeed f x) where
  quiet := .setFeed s f x
  port g hg := by rw [State.setFeed_feed_ne hg]
  conv g hg := by rw [State.setFeed_feed_ne hg]
  prog _ := .refl _
  config _ := rfl

theorem FeedEffect.onPort (f : FeedId) (s : State) (g : Port → Port) : FeedEffect f s (s.onPort f g) := .setFeed f s _

/-- The alarm cascade is within the work of any feed. -/
theorem FeedEffect.ofAlarm {f : FeedId} {s t : State} (h : AlarmEffect s t) : FeedEffect f s t where
  quiet := h.quiet
  port g _ := by rw [h.feed g]
  conv g _ := by rw [h.feed g]
  prog p := by
    refine ⟨?_, ?_⟩
    · rw [h.prog p]
    · unfold DelayRec.Kept; rw [h.prog p]
  config := h.config

theorem FeedEffect.setCond (f : FeedId) (e : EntryId) (v : Bool) (s : State) : FeedEffect f s (setCond e v s) := by
  refine .trans (b := s.setCondBit e v) ?_ (.ofAlarm (setCond_effect e v s))
  exact ⟨.setCondBit s e v, fun _ _ => rfl, fun _ _ => rfl, fun _ => .refl _, fun _ => rfl⟩

theorem FeedEffect.setFeedCond (f : FeedId) (k : FeedCond) (v : Bool) (s : State) :
    FeedEffect f s (setFeedCond f k v s) := .setCond ..

theorem FeedEffect.pushNotice (f : FeedId) (k : NoticeKind) (src : Source) (d : List Byte) (s : State) :
    FeedEffect f s (pushNotice k src d s) := .ofAlarm (.pushNotice ..)

/-! ## Delay targets -/

theorem Program.beginCut_kept (g : Program) : g.Kept g.beginCut := ⟨rfl, rfl⟩

theorem Program.chooseOp_kept (g : Program) : g.Kept g.chooseOp := by
  unfold Program.chooseOp; split
  · exact ⟨rfl, rfl⟩
  · split
    · exact ⟨rfl, rfl⟩
    · exact g.beginCut_kept

theorem Program.retarget_kept (g : Program) : g.Kept g.retarget := by
  unfold Program.retarget; split
  · exact g.chooseOp_kept
  · split
    · exact .refl g
    · exact g.beginCut_kept
  all_goals exact .refl g

theorem Program.afterClamp_kept (g : Program) : g.Kept g.afterClamp := by
  unfold Program.afterClamp; split
  · exact g.chooseOp_kept
  · exact g.chooseOp_kept
  all_goals exact .refl g

theorem FeedEffect.setProg {p : ProgId} {s : State} {x : Program} (f : FeedId) (h : (s.prog p).Kept x) :
    FeedEffect f s (s.setProg p x) where
  quiet := .setProg s p x
  port _ _ := rfl
  conv _ _ := rfl
  prog q := by
    by_cases hq : q = p
    · subst hq; simpa using h
    · rw [State.setProg_prog_ne hq]; exact .refl _
  config _ := rfl

theorem FeedEffect.moveTarget (f : FeedId) (p : ProgId) (s : State) : FeedEffect f s (moveTarget p s) := by
  have base (d c : Nat) : (s.prog p).Kept { s.prog p with delay := { (s.prog p).delay with dtgt := d, dcur := c } } :=
    ⟨rfl, rfl⟩
  unfold Machine.moveTarget
  dsimp only
  split
  · exact .setProg f (base ..)
  · split
    · split
      · exact (FeedEffect.setProg f ((base ..).trans (Program.afterClamp_kept _))).trans (.pushNotice ..)
      · exact .setProg f ((base ..).trans (Program.afterClamp_kept _))
    · split
      · exact .setProg f (base ..)
      · exact .setProg f ((base ..).trans (Program.retarget_kept _))

theorem FeedEffect.recomputeDelay (f : FeedId) (p : ProgId) (s : State) : FeedEffect f s (recomputeDelay p s) := by
  unfold Machine.recomputeDelay
  split
  · refine .trans ?_ (.moveTarget f p _)
    unfold judgeLatency
    exact (FeedEffect.setCond ..).trans (.setCond ..)
  · exact .refl f s

theorem FeedEffect.classEvent (f g : FeedId) (a b : Option RateClass) (s : State) :
    FeedEffect f s (classEvent g a b s) := by
  unfold Machine.classEvent
  refine (FeedEffect.pushNotice ..).trans (.forEach (fun p s => ?_) ..)
  unfold realign
  split
  · exact .recomputeDelay ..
  · exact .refl f s

/-! ## The port and its converter -/

theorem FeedEffect.changeConverter (f : FeedId) (c : Converter) (s : State) :
    FeedEffect f s (changeConverter f c s) := by
  unfold Machine.changeConverter
  dsimp only
  split
  · exact (FeedEffect.setFeed ..).trans (.setFeedCond ..)
  · exact (FeedEffect.setFeed ..).trans ((FeedEffect.setFeedCond ..).trans (.classEvent ..))

theorem FeedEffect.keepConverter (f : FeedId) (r : Converter × Bool) (s : State) :
    FeedEffect f s (keepConverter f r s) := by
  unfold Machine.keepConverter
  dsimp only
  split
  · exact (FeedEffect.setFeed ..).trans (.setFeedCond ..)
  · exact .setFeed ..

theorem FeedEffect.takeSubframeA (f : FeedId) (w : Option (BitVec 32)) (s : State) :
    FeedEffect f s (takeSubframeA f w s) := (FeedEffect.onPort ..).trans (.setFeedCond ..)

theorem FeedEffect.takeSubframeB (f : FeedId) (a : Sample) (w : Option (BitVec 32)) (s : State) :
    FeedEffect f s (takeSubframeB f a w s) :=
  (FeedEffect.onPort ..).trans ((FeedEffect.setFeedCond ..).trans (.keepConverter ..))

theorem FeedEffect.subframeReceived (f : FeedId) (w : BitVec 32) (s : State) :
    FeedEffect f s (subframeReceived f w s) := by
  unfold Machine.subframeReceived
  split
  · split
    · exact .refl f s
    · exact .takeSubframeA ..
    · exact .takeSubframeB ..
    · exact .refl f s
  · exact .refl f s

theorem FeedEffect.endFrame (f : FeedId) (s : State) : FeedEffect f s (endFrame f s) := by
  unfold Machine.endFrame
  split
  · exact .refl f s
  · dsimp only
    split
    · exact (FeedEffect.takeSubframeA ..).trans (.takeSubframeB ..)
    · exact .takeSubframeA ..
  · exact .takeSubframeB ..
  · exact .refl f s

theorem FeedEffect.yieldSpan (f : FeedId) (s : State) : FeedEffect f s (yieldSpan f s) :=
  (FeedEffect.onPort ..).trans ((FeedEffect.setFeedCond ..).trans (.changeConverter ..))

theorem FeedEffect.advanceSpan (f : FeedId) (s : State) : FeedEffect f s (advanceSpan f s) := by
  unfold Machine.advanceSpan
  dsimp only
  split
  · exact .onPort ..
  · split
    · exact .yieldSpan ..
    · exact .onPort ..

/-- A frame edge is the work of its own feed. -/
theorem FeedEffect.frameEdge (f : FeedId) (first : Bool) (s : State) : FeedEffect f s (frameEdge f first s) := by
  unfold Machine.frameEdge
  split
  · have opened (t : State) : FeedEffect f t ((restartLossTimer f t).onPort f fun q => { q with frame := .opened }) := by
      unfold restartLossTimer; exact (FeedEffect.onPort f t _).trans (.onPort f _ _)
    dsimp only
    split
    · exact .trans (.setFeedCond f _ _ s) (.trans (.endFrame f _) (.trans (.advanceSpan f _) (opened _)))
    · exact .trans (.setFeedCond f _ _ s) (.trans (.advanceSpan f _) (.trans (.endFrame f _) (opened _)))
  · exact .refl f s

/-- The loss of a feed is its own work. -/
theorem FeedEffect.declareLoss (f : FeedId) (first : Bool) (s : State) : FeedEffect f s (declareLoss f first s) := by
  have conds (s : State) : FeedEffect f s (lossConditions f s) := (FeedEffect.setFeedCond ..).trans (.setFeedCond ..)
  have lose (s : State) : FeedEffect f s (loseConverter f s) := by
    unfold loseConverter; dsimp only; split
    · exact .changeConverter ..
    · exact .refl f s
  unfold Machine.declareLoss
  dsimp only
  split
  · exact .trans (.onPort f s _) (.trans (.setFeedCond f _ _ _) (.trans (conds _) (lose _)))
  · exact .trans (.onPort f s _) (.trans (lose _) (.trans (.setFeedCond f _ _ _) (conds _)))

end Sys2Proof.Machine
end

