-- ==== Sys2Proof/Laws/Loud.lean ====
section
/-! SUPPORT. What the loudness work of a block close, a membership event, the page pool's operations and an output
sample's ring writes can do to a state (R73, R85 to R111, R113 to R117). -/
namespace Sys2Proof.Machine

/-! ## Membership events (R105) -/

/-- What a membership event can do: the applied gains and the ramps of programs. -/
structure GainEffect (s t : State) : Prop where
  rest : t = { s with progs := t.progs }
  prog : ∀ q, t.prog q =
    { s.prog q with
      loud := { (s.prog q).loud with
        appliedGain := (t.prog q).loud.appliedGain, rampTarget := (t.prog q).loud.rampTarget
        rampLeft := (t.prog q).loud.rampLeft } }

theorem GainEffect.refl (s : State) : GainEffect s s := ⟨rfl, fun _ => rfl⟩

theorem GainEffect.trans {a b c : State} (h : GainEffect a b) (g : GainEffect b c) : GainEffect a c where
  rest := by rw [g.rest, h.rest]
  prog q := by rw [g.prog q, h.prog q]

theorem GainEffect.reformGain (p : ProgId) (formed : ProgId → Int) (left : Nat) (q : ProgId) (s : State) :
    GainEffect s (reformGain p formed left q s) := by
  unfold Machine.reformGain
  dsimp only
  split
  · refine ⟨rfl, fun r => ?_⟩
    by_cases h : r = q
    · subst h; simp [State.onProg]
    · simp only [State.onProg]; rw [State.setProg_prog_ne h]
  · exact .refl s

/-- A membership event forms applied gains anew, and does nothing else. -/
theorem GainEffect.membershipEvent (p : ProgId) (s : State) : GainEffect s (membershipEvent p s) :=
  forEach_relation (fun s => .refl s) (fun h g => h.trans g) (fun q s => .reformGain p _ _ q s) allProgs s

/-! ## A block close (R85) -/

theorem ProgEffect.activateSettings (p : ProgId) (s : State) : ProgEffect p s (activateSettings p s) := by
  unfold Machine.activateSettings
  dsimp only
  split
  · exact (ProgEffect.onProg ..).trans (.setSilence ..)
  · exact .onProg ..

theorem ProgEffect.silenceStep (p : ProgId) (s : State) : ProgEffect p s (silenceStep p s) := by
  unfold Machine.silenceStep
  dsimp only
  split
  · exact .refl p s
  · split
    · exact .refl p s
    · split
      · exact (ProgEffect.onProg ..).trans (.setSilence ..)
      · split
        · exact (ProgEffect.onProg ..).trans (.setSilence ..)
        · exact .onProg ..

/-- One controller's close acts on its own program alone. -/
theorem ProgEffect.closeController (p : ProgId) (s : State) : ProgEffect p s (closeController p s) := by
  unfold Machine.closeController
  dsimp only
  split
  · unfold closeMeasured
    exact .trans (.activateSettings p s) (.trans (.onProg p _ _) (.trans (.silenceStep p _) (.onProg p _ _)))
  · unfold closeUnmeasured
    exact .trans (.activateSettings p s) (.onProg p _ _)

/-- The return timer of a program at a close acts on that program alone. -/
theorem ProgEffect.countReturn (p : ProgId) (s : State) : ProgEffect p s (countReturn p s) := by
  unfold Machine.countReturn
  dsimp only
  split
  · split <;> exact .onProg ..
  · exact .onProg ..

/-- A return timer's work at a close, with the return that may begin, acts on its program alone. -/
theorem ProgEffect.closeReturn (apart : Bool) (p : ProgId) (s : State) : ProgEffect p s (closeReturn apart p s) := by
  unfold Machine.closeReturn beginReturn
  dsimp only
  split
  · exact .countReturn p s
  · split
    · exact (ProgEffect.countReturn p s).trans (.onProg ..)
    · exact .countReturn p s

/-! ## The order of a close's work (log 23) -/

theorem mem_onceEach {w : CloseWork} : ∀ l : List CloseWork, w ∈ onceEach l ↔ w ∈ l
  | [] => Iff.rfl
  | x :: xs => by
    by_cases h : w = x
    · simp [onceEach, h]
    · simp [onceEach, h, mem_onceEach xs]

theorem onceEach_nodup : ∀ l : List CloseWork, (onceEach l).Nodup
  | [] => List.nodup_nil
  | x :: xs => by
    unfold onceEach
    exact List.nodup_cons.mpr ⟨by simp, (onceEach_nodup xs).filter _⟩

/-- A list cut at `levels`: what stands before it, and what stands behind it. -/
theorem split_at_levels (l : List CloseWork) (h : .levels ∈ l) :
    l = l.takeWhile (· != .levels) ++ .levels :: (l.dropWhile (· != .levels)).drop 1 := by
  induction l with
  | nil => simp at h
  | cons x xs ih =>
    by_cases hx : x = .levels
    · subst hx; simp
    · have : CloseWork.levels ∈ xs := by simpa [Ne.symm hx] using h
      simp only [List.takeWhile_cons, List.dropWhile_cons, bne_iff_ne, ne_eq, hx, not_false_eq_true, if_true,
        List.cons_append]
      rw [← ih this]

/-- The work of a close before the gain laws that stand behind `levels` come forward: each piece once. -/
theorem works_nodup (o : CloseOrder) :
    (onceEach o.first ++ allWorks.filter fun w => !(onceEach o.first).contains w).Nodup := by
  refine List.nodup_append.mpr ⟨onceEach_nodup _, ?_, ?_⟩
  · have : allWorks.Nodup := by decide +kernel
    exact this.filter _
  · intro a ha b hb h
    subst h
    simp [ha] at hb

theorem mem_works (o : CloseOrder) (w : CloseWork) :
    w ∈ onceEach o.first ++ allWorks.filter fun x => !(onceEach o.first).contains x := by
  have all : w ∈ allWorks := by
    unfold allWorks allProgs allFeeds allEntries
    cases w <;> simp
  by_cases h : w ∈ onceEach o.first
  · exact List.mem_append_left _ h
  · exact List.mem_append_right _ (by simp [all, h])

/-- What bringing the gain laws forward makes of a list that holds `levels`. -/
theorem measuresForward_spec {works : List CloseWork} (hl : .levels ∈ works) :
    ∃ a b, measuresForward works = a ++ .levels :: b ∧ (a ++ .levels :: b).Perm works ∧
      ∀ w ∈ b, isMeasure w = false := by
  refine ⟨_, _, rfl, ?_, by simp⟩
  conv => rhs; rw [split_at_levels works hl]
  rw [List.append_assoc]
  exact List.Perm.append_left _ (List.perm_middle.trans (List.Perm.cons _ (List.filter_append_perm isMeasure _)))

/-- What a close does, whatever its order: each piece of work once, and every controller before `levels`. -/
theorem closeWorks_split (o : CloseOrder) :
    ∃ a b, closeWorks o = a ++ .levels :: b ∧ (a ++ .levels :: b).Nodup ∧ (∀ w, w ∈ a ++ .levels :: b) ∧
      ∀ w ∈ b, isMeasure w = false := by
  obtain ⟨a, b, h, perm, hb⟩ := measuresForward_spec (mem_works o .levels)
  exact ⟨a, b, h, perm.nodup_iff.mpr (works_nodup o), fun w => perm.mem_iff.mpr (mem_works o w), hb⟩

/-! ## The multiplier 10^(g/200) (R106, R107) -/

/-- The search by bits ends at the last whole number the power reaches, where its range holds it. -/
theorem powerBits_spec (x : Rat) : ∀ k n, powerReaches x n = true → powerReaches x (n + 2 ^ k) = false →
    powerReaches x (powerBits x k n) = true ∧ powerReaches x (powerBits x k n + 1) = false
  | 0, _, h, g => ⟨h, g⟩
  | k + 1, n, h, g => by
    unfold powerBits
    split
    · rename_i hk
      exact powerBits_spec x k _ hk (by rw [Nat.add_assoc, ← Nat.two_mul, ← Nat.pow_succ']; exact g)
    · rename_i hk
      exact powerBits_spec x k _ h (by simpa using hk)

/-- 10^x in whole parts of 2^-32: the power reaches that many parts, and not one more. -/
theorem powerUnits_spec (x : Rat) :
    powerReaches x (powerUnits x) = true ∧ powerReaches x (powerUnits x + 1) = false := by
  have hd : 0 < x.den := x.den_pos
  refine powerBits_spec x _ 0 ?_ ?_
  · simp [powerReaches, Nat.zero_pow hd]
  · have hq : x.num.toNat < x.den * (x.num.toNat / x.den + 1) := Nat.lt_mul_div_succ _ hd
    have h1 : 10 ^ x.num.toNat ≤ 16 ^ x.num.toNat := Nat.pow_le_pow_left (by decide) _
    have h2 : (16 : Nat) ^ x.num.toNat < 16 ^ (x.den * (x.num.toNat / x.den + 1)) :=
      Nat.pow_lt_pow_right (by decide) hq
    have h3 : (2 ^ (36 + 4 * (x.num.toNat / x.den))) ^ x.den =
        2 ^ (32 * x.den) * 16 ^ (x.den * (x.num.toNat / x.den + 1)) := by
      rw [show (16 : Nat) = 2 ^ 4 from rfl, ← Nat.pow_mul, ← Nat.pow_mul, ← Nat.pow_add]
      congr 1
      rw [Nat.mul_comm 32, Nat.mul_comm _ x.den, Nat.mul_left_comm 4 x.den, ← Nat.mul_add]
      congr 1
      omega
    simp only [powerReaches, Nat.zero_add, decide_eq_false_iff_not, Nat.not_le, h3]
    have h4 : 0 < 10 ^ (-x.num).toNat := Nat.pow_pos (by decide)
    calc 2 ^ (32 * x.den) * 10 ^ x.num.toNat
        < 2 ^ (32 * x.den) * 16 ^ (x.den * (x.num.toNat / x.den + 1)) :=
          Nat.mul_lt_mul_of_pos_left (Nat.lt_of_le_of_lt h1 h2) (Nat.pow_pos (by decide))
      _ ≤ _ := Nat.le_mul_of_pos_right _ h4

/-! ## The page pool (R113, R115) -/

theorem returnPages_prog_self (p : ProgId) (s : State) :
    (returnPages p s).prog p =
      { s.prog p with delay := { (s.prog p).delay with reserve := 0, chain := [], writePos := 0, flushCounter := 0 } } := by
  simp [returnPages, State.prog, State.setProg, DelayRec.flush]

theorem returnPages_prog_ne {p q : ProgId} (h : q ≠ p) (s : State) : (returnPages p s).prog q = s.prog q :=
  State.setProg_prog_ne h s _

/-- The pages of the program join the tail of the free list. -/
theorem returnPages_freePages (p : ProgId) (s : State) :
    (returnPages p s).freePages = s.freePages ++ (s.prog p).delay.chain := rfl

theorem rebuildChain_prog_ne {p q : ProgId} (h : q ≠ p) (P : Nat) (s : State) :
    (rebuildChain p P s).prog q = s.prog q := State.setProg_prog_ne h s _

/-- The rebuilt chain and the free list are the pool of before, cut where the need ends. -/
theorem rebuildChain_pool (p : ProgId) (P : Nat) (s : State) :
    ((rebuildChain p P s).prog p).delay.chain ++ (rebuildChain p P s).freePages =
      s.freePages ++ (s.prog p).delay.chain := by
  have h : ((rebuildChain p P s).prog p).delay.chain =
      (s.freePages ++ (s.prog p).delay.chain).take ((s.prog p).slots * P) := by
    simp [rebuildChain, State.prog, State.setProg]
  rw [h]
  exact List.take_append_drop ..

/-! ## The rings (R114, R116) -/

/-- A ring write keeps the memory's canonical form. -/
theorem DelayRec.writeSlots_wf (d : DelayRec) : ∀ (xs : List Rat) (k : Nat) (m : Memory), m.wf = true →
    (d.writeSlots k xs m).wf = true
  | [], _, _, h => h
  | x :: xs, k, _, h => DelayRec.writeSlots_wf d xs (k + 1) _ (Memory.write_wf _ x h)

/-- A sample written is read back, whatever stood there. -/
theorem Memory.read_write_self (a : Nat) (v : Rat) : ∀ m : Memory, m.wf = true → (m.write a v).read a = v := by
  suffices h : ∀ (m : Memory) (least : Nat), Memory.wfFrom least m = true → (m.write a v).read a = v from
    fun m hm => h m 0 hm
  intro m
  induction m with
  | nil => intro _ _; unfold Memory.write; split <;> simp_all [Memory.read]
  | cons c m ih =>
    obtain ⟨b, w⟩ := c
    intro least hm
    simp only [Memory.wfFrom, Bool.and_eq_true] at hm
    unfold Memory.write
    split
    · rename_i hab
      split
      · rename_i hv; subst hv
        have : a ≠ b := by omega
        simp [Memory.read, this, Memory.read_below (show a < b + 1 by omega) hm.2]
      · simp [Memory.read]
    · split
      · rename_i hab; subst hab
        split
        · rename_i hv; subst hv; exact Memory.read_below (by omega) hm.2
        · simp [Memory.read]
      · rename_i h1 h2
        simp [Memory.read, h2, ih (b + 1) hm.2]

/-- A write leaves every other address as it reads. -/
theorem Memory.read_write_ne {a x : Nat} (h : x ≠ a) (v : Rat) : ∀ m : Memory, (m.write a v).read x = m.read x := by
  intro m
  induction m with
  | nil => unfold Memory.write; split <;> simp [Memory.read, h]
  | cons c m ih =>
    obtain ⟨b, w⟩ := c
    unfold Memory.write
    split
    · split <;> simp [Memory.read, h]
    · split
      · rename_i hab; subst hab
        split <;> simp [Memory.read, h]
      · simp [Memory.read, ih]

end Sys2Proof.Machine
end

