-- ==== Sys2Proof/Laws/Operands.lean ====
section
/-! SUPPORT. How a request field that was written into a body is read back from it (R151, R159), and what a message of
each outcome leaves (R149 to R152). -/
namespace Sys2Proof.Machine

/-! ## Fields read from a body -/

@[simp] theorem byteAt_zero (b : Byte) (l : List Byte) : byteAt (b :: l) 0 = b.toNat := rfl

@[simp] theorem byteAt_succ (b : Byte) (l : List Byte) (i : Nat) : byteAt (b :: l) (i + 1) = byteAt l i := rfl

@[simp] theorem byteAt_nil (i : Nat) : byteAt [] i = 0 := rfl

@[simp] theorem feedIndex_val (f : FeedId) : feedIndex (BitVec.ofNat 8 f.val).toNat = .ok f := by
  have : f.val % 256 = f.val := by omega
  simp [feedIndex, this]

@[simp] theorem progIndex_val (p : ProgId) : progIndex (BitVec.ofNat 8 p.val).toNat = .ok p := by
  have : p.val % 256 = p.val := by omega
  simp [progIndex, this]

@[simp] theorem rankIndex_val (r : Rank) : rankIndex (BitVec.ofNat 8 r.val).toNat = .ok r := by
  have : r.val % 256 = r.val := by omega
  simp [rankIndex, this]

@[simp] theorem entryIndex_val (e : EntryId) : entryIndex (BitVec.ofNat 8 e.val).toNat = .ok e := by
  have : e.val % 256 = e.val := by omega
  simp [entryIndex, this]

@[simp] theorem onOffOfCode_val (b : Bool) : onOffOfCode (BitVec.ofNat 8 b.toNat).toNat = some b := by cases b <;> rfl

@[simp] theorem classOfCode_val (c : Option RateClass) : classOfCode (BitVec.ofNat 8 (classCode c)).toNat = some c := by
  cases c with
  | none => rfl
  | some k => cases k <;> rfl

@[simp] theorem weightOfCode_val (w : WeightCode) : weightOfCode (BitVec.ofNat 8 w.code).toNat = some w := by
  cases w <;> rfl

@[simp] theorem modeOfCode_val (m : LoudMode) : modeOfCode (BitVec.ofNat 8 m.code).toNat = some m := by cases m <;> rfl

@[simp] theorem intervalOfCode_val (n : StepInterval) : intervalOfCode (BitVec.ofNat 8 n.code).toNat = some n := by
  cases n <;> rfl

@[simp] theorem severityOfCode_val (v : Severity) : severityOfCode (BitVec.ofNat 8 v.code).toNat = some v := by
  cases v <;> rfl

@[simp] theorem actionOfCode_val (a : Action) : actionOfCode (BitVec.ofNat 8 a.code).toNat = some a := by cases a <;> rfl

/-- A two-byte field reads back the number written, modulo 2^16 (R159). -/
@[simp] theorem wordAt_byte2 (n : Nat) (l : List Byte) : wordAt (byte2 n ++ l) 0 = n % 65536 := by
  simp [wordAt, byte2, byteAt]; omega

/-- A value inside its range is stored as sent (R151). -/
theorem clampInt_of_mem {lo hi x : Int} (h : lo ≤ x) (g : x ≤ hi) : clampInt lo hi x = x := by
  unfold clampInt; omega

theorem clampInt_mem {lo hi : Int} (h : lo ≤ hi) (x : Int) : lo ≤ clampInt lo hi x ∧ clampInt lo hi x ≤ hi := by
  unfold clampInt; omega

/-! ## Lengths of fields (R159) -/

@[simp] theorem byte1_length (n : Nat) : (byte1 n).length = 1 := rfl

@[simp] theorem byte2_length (n : Nat) : (byte2 n).length = 2 := rfl

@[simp] theorem byte4_length (n : Nat) : (byte4 n).length = 4 := rfl

@[simp] theorem bool1_length (b : Bool) : (bool1 b).length = 1 := rfl

@[simp] theorem signed2_length (x : Int) : (signed2 x).length = 2 := rfl

@[simp] theorem bits1_length (l : List Bool) : (bits1 l).length = 1 := rfl

@[simp] theorem rankByte_length (r : Option Rank) : (rankByte r).length = 1 := by cases r <;> rfl

@[simp] theorem levelBytes_length (x : Option Int) : (levelBytes x).length = 2 := by cases x <;> rfl

@[simp] theorem padTo_length {α : Type} (n : Nat) (fill : α) (l : List α) : (padTo n fill l).length = n := by
  simp [padTo]

/-! ## A message taken -/

/-- While a reply is being sent a message's bytes are lost and counted (R149). -/
theorem deliver_busy {s : State} (h : s.rx.state = .busy) (k : Kind) (ev : List Byte → State → Except Status Taken)
    (m : Msg) : deliver k ev m s = countOverruns (frameBytes m) s := by
  simp [deliver, h]

/-- An addressed message is answered, and leaves the state it was carried out to (R150). -/
theorem deliver_addressed {s : State} {m : Msg} (h : Answers s m) (k : Kind)
    (ev : List Byte → State → Except Status Taken) :
    deliver k ev m s =
      beginReply (kindByte k m.check) (replyBody (judge k ev m s)) (carriedOut (judge k ev m s) m.check s) := by
  obtain ⟨-, hb, hm, hu⟩ := h
  have hn : isBroadcast m s = false := by simp only [isBroadcast, hm, beq_eq_false_iff_ne.mpr hu, Bool.or_self]
  simp [deliver, hb, hn]

/-- A broadcast is not answered, and of a query kind it has no effect (R150). -/
theorem deliver_broadcast {s : State} {m : Msg} (hb : s.rx.state ≠ .busy) (h : isBroadcast m s = true) (k : Kind)
    (ev : List Byte → State → Except Status Taken) :
    deliver k ev m s = toHunt (if k.isQuery then s else carriedOut (judge k ev m s) m.check s) := by
  simp [deliver, hb, h]

theorem kindByte_plain (k : Kind) : kindByte k false = BitVec.ofNat 8 k.code := by cases k <;> rfl

/-- An addressed command, of a legal length and judged OK or ADJUSTED, is carried out and answered (R150, R151). -/
theorem onUnit_deliver_ok {s : State} {m : Msg} {k : Kind} {ev : List Byte → State → Except Status Taken} {t : Taken}
    (h : Commands s m) (hl : k.lengthOk m.body.length = true) (he : ev m.body s = .ok t) :
    onUnit (deliver k ev m) s = .next (replying k (byte1 t.status.code ++ t.fields) t.after) := by
  rw [onUnit_running h.1.1, deliver_addressed h.1]
  simp [judge, h.2, hl, he, carriedOut, replyBody, beginReply, replying, kindByte_plain]

/-- An addressed command that is refused changes nothing but the reply (R151). -/
theorem onUnit_deliver_error {s : State} {m : Msg} {k : Kind} {ev : List Byte → State → Except Status Taken}
    {st : Status} (h : Commands s m) (hl : k.lengthOk m.body.length = true) (he : ev m.body s = .error st) :
    onUnit (deliver k ev m) s = .next (replying k (byte1 st.code) s) := by
  rw [onUnit_running h.1.1, deliver_addressed h.1]
  simp [judge, h.2, hl, he, carriedOut, replyBody, beginReply, replying, kindByte_plain]

@[simp] theorem require_true (st : Status) : require true st = .ok () := rfl

@[simp] theorem require_false (st : Status) : require false st = .error st := rfl

end Sys2Proof.Machine
end

