-- ==== Sys2Proof/Laws/PerInstr.lean ====
section
/-! SUPPORT. Statements made for each command: that the body a well-formed command carries fits a frame. -/
namespace Sys2Proof.Laws

/-- The body of the message that a well-formed command carries is at most 160 bytes. -/
def BodyFits.Statement (i : Instr) : Prop := i.wf = true → ∀ m, i.message = some m → m.body.length ≤ 160

theorem BodyFits.of_message {i : Instr} (h : i.wf = true) {m : Msg} (hm : i.message = some m) :
    m.body.length ≤ 160 := by
  simp only [Instr.wf, hm, Msg.wf, Bool.and_eq_true, decide_eq_true_eq] at h
  exact h.2

theorem BodyFits.ident (m : Msg) : BodyFits.Statement (.ident m) := fun h _ hm => BodyFits.of_message h hm

theorem BodyFits.restart (m : Msg) : BodyFits.Statement (.restart m) := fun h _ hm => BodyFits.of_message h hm

theorem BodyFits.linkStats (m : Msg) : BodyFits.Statement (.linkStats m) := fun h _ hm => BodyFits.of_message h hm

theorem BodyFits.notices (m : Msg) : BodyFits.Statement (.notices m) := fun h _ hm => BodyFits.of_message h hm

theorem BodyFits.feedConfig (m : Msg) : BodyFits.Statement (.feedConfig m) := fun h _ hm => BodyFits.of_message h hm

theorem BodyFits.feedQuery (m : Msg) : BodyFits.Statement (.feedQuery m) := fun h _ hm => BodyFits.of_message h hm

theorem BodyFits.progDefine (m : Msg) : BodyFits.Statement (.progDefine m) := fun h _ hm => BodyFits.of_message h hm

theorem BodyFits.progClear (m : Msg) : BodyFits.Statement (.progClear m) := fun h _ hm => BodyFits.of_message h hm

theorem BodyFits.setDefine (m : Msg) : BodyFits.Statement (.setDefine m) := fun h _ hm => BodyFits.of_message h hm

theorem BodyFits.progStart (m : Msg) : BodyFits.Statement (.progStart m) := fun h _ hm => BodyFits.of_message h hm

theorem BodyFits.progStop (m : Msg) : BodyFits.Statement (.progStop m) := fun h _ hm => BodyFits.of_message h hm

theorem BodyFits.progRestart (m : Msg) : BodyFits.Statement (.progRestart m) := fun h _ hm => BodyFits.of_message h hm

theorem BodyFits.progQuery (m : Msg) : BodyFits.Statement (.progQuery m) := fun h _ hm => BodyFits.of_message h hm

theorem BodyFits.sourceSelect (m : Msg) : BodyFits.Statement (.sourceSelect m) := fun h _ hm => BodyFits.of_message h hm

theorem BodyFits.failoverConfig (m : Msg) : BodyFits.Statement (.failoverConfig m) := fun h _ hm => BodyFits.of_message h hm

theorem BodyFits.loudConfig (m : Msg) : BodyFits.Statement (.loudConfig m) := fun h _ hm => BodyFits.of_message h hm

theorem BodyFits.loudQuery (m : Msg) : BodyFits.Statement (.loudQuery m) := fun h _ hm => BodyFits.of_message h hm

theorem BodyFits.loudRestart (m : Msg) : BodyFits.Statement (.loudRestart m) := fun h _ hm => BodyFits.of_message h hm

theorem BodyFits.delayReserve (m : Msg) : BodyFits.Statement (.delayReserve m) := fun h _ hm => BodyFits.of_message h hm

theorem BodyFits.delayTarget (m : Msg) : BodyFits.Statement (.delayTarget m) := fun h _ hm => BodyFits.of_message h hm

theorem BodyFits.delayQuery (m : Msg) : BodyFits.Statement (.delayQuery m) := fun h _ hm => BodyFits.of_message h hm

theorem BodyFits.poolQuery (m : Msg) : BodyFits.Statement (.poolQuery m) := fun h _ hm => BodyFits.of_message h hm

theorem BodyFits.alarmConfig (m : Msg) : BodyFits.Statement (.alarmConfig m) := fun h _ hm => BodyFits.of_message h hm

theorem BodyFits.alarmQuery (m : Msg) : BodyFits.Statement (.alarmQuery m) := fun h _ hm => BodyFits.of_message h hm

theorem BodyFits.alarmAck (m : Msg) : BodyFits.Statement (.alarmAck m) := fun h _ hm => BodyFits.of_message h hm

theorem BodyFits.alarmScan (m : Msg) : BodyFits.Statement (.alarmScan m) := fun h _ hm => BodyFits.of_message h hm

theorem BodyFits.badKindFrame (kind : Byte) (m : Msg) : BodyFits.Statement (.badKindFrame kind m) := fun h _ hm => BodyFits.of_message h hm

theorem BodyFits.frameEdge (f : FeedId) (frameFirst : Bool) : BodyFits.Statement (.frameEdge f frameFirst) := fun h _ hm => BodyFits.of_message h hm

theorem BodyFits.subframeJudged (f : FeedId) (word : BitVec 32) : BodyFits.Statement (.subframeJudged f word) := fun h _ hm => BodyFits.of_message h hm

theorem BodyFits.feedLossTimeout (f : FeedId) (lossFirst : Bool) : BodyFits.Statement (.feedLossTimeout f lossFirst) := fun h _ hm => BodyFits.of_message h hm

theorem BodyFits.outputSample : BodyFits.Statement (.outputSample) := fun h _ hm => BodyFits.of_message h hm

theorem BodyFits.startFadeEnd (p : ProgId) : BodyFits.Statement (.startFadeEnd p) := fun h _ hm => BodyFits.of_message h hm

theorem BodyFits.stopFadeEnd (p : ProgId) : BodyFits.Statement (.stopFadeEnd p) := fun h _ hm => BodyFits.of_message h hm

theorem BodyFits.swapSwitch (p : ProgId) : BodyFits.Statement (.swapSwitch p) := fun h _ hm => BodyFits.of_message h hm

theorem BodyFits.swapEnd (p : ProgId) : BodyFits.Statement (.swapEnd p) := fun h _ hm => BodyFits.of_message h hm

theorem BodyFits.blockClose (order : CloseOrder) : BodyFits.Statement (.blockClose order) := fun h _ hm => BodyFits.of_message h hm

theorem BodyFits.silenceTimeout (p : ProgId) : BodyFits.Statement (.silenceTimeout p) := fun h _ hm => BodyFits.of_message h hm

theorem BodyFits.returnDue (p : ProgId) : BodyFits.Statement (.returnDue p) := fun h _ hm => BodyFits.of_message h hm

theorem BodyFits.slewStepComplete (p : ProgId) : BodyFits.Statement (.slewStepComplete p) := fun h _ hm => BodyFits.of_message h hm

theorem BodyFits.cutJump (p : ProgId) : BodyFits.Statement (.cutJump p) := fun h _ hm => BodyFits.of_message h hm

theorem BodyFits.cutInEnd (p : ProgId) : BodyFits.Statement (.cutInEnd p) := fun h _ hm => BodyFits.of_message h hm

theorem BodyFits.alarmRaiseDelayExpiry (e : EntryId) : BodyFits.Statement (.alarmRaiseDelayExpiry e) := fun h _ hm => BodyFits.of_message h hm

theorem BodyFits.alarmClearDelayExpiry (e : EntryId) : BodyFits.Statement (.alarmClearDelayExpiry e) := fun h _ hm => BodyFits.of_message h hm

theorem BodyFits.houseRefEdge : BodyFits.Statement (.houseRefEdge) := fun h _ hm => BodyFits.of_message h hm

theorem BodyFits.houseRefLossTimeout : BodyFits.Statement (.houseRefLossTimeout) := fun h _ hm => BodyFits.of_message h hm

theorem BodyFits.powerOnReset (uaddr : BitVec 5) (baud : BitVec 2) : BodyFits.Statement (.powerOnReset uaddr baud) := fun h _ hm => BodyFits.of_message h hm

theorem BodyFits.unitRestart : BodyFits.Statement (.unitRestart) := fun h _ hm => BodyFits.of_message h hm

theorem BodyFits.byteReceived (b : Byte) : BodyFits.Statement (.byteReceived b) := fun h _ hm => BodyFits.of_message h hm

theorem BodyFits.receiverGapTimeout : BodyFits.Statement (.receiverGapTimeout) := fun h _ hm => BodyFits.of_message h hm

theorem BodyFits.replySent : BodyFits.Statement (.replySent) := fun h _ hm => BodyFits.of_message h hm

theorem BodyFits.powerOnResetStart : BodyFits.Statement (.powerOnResetStart) := fun h _ hm => BodyFits.of_message h hm

end Sys2Proof.Laws
end

