-- ==== Sys2Proof/Tests/Slice0.lean ====
section
/-! SUPPORT. The model's own tests: what WellFormed refuses, worked examples and tables of the manual (each test names its
source; expected values are the manual's or are computed by hand from its formulas), and, for every statement with
hypotheses, a state and operands that meet them. -/
namespace Sys2Proof.Tests

open Sys2Proof Sys2Proof.Machine

set_option Elab.async false

/-! ## Small states -/

/-- The part after a power-on reset, strapped to unit address 3. -/
def ready : State := { State.reset with unitAddr := 3 }

/-- An addressed message in its carried-out form, its body as numbers. -/
def msg (l : List Nat) : Msg := { body := l.map (BitVec.ofNat 8) }

/-- The state a command leaves. -/
def after (o : Host.Outcome State Fault Refusal) : State :=
  match o with
  | .next t => t
  | .fault _ => State.reset
  | .refused _ => State.reset

/-- The bytes of the reply being sent, without start byte, address and kind, and without the check byte. -/
def replyOf (s : State) : List Nat := ((s.reply.getD []).map (·.toNat)).drop 4 |>.dropLast

/-- An enabled, healthy feed whose converter is LOCKED at a class. -/
def lockedFeed (k : RateClass) : Feed where
  port := { enable := true, lossTimer := some 0 }
  conv := { state := .locked, cls := some k, ratio := 1048576, stepUsed := 1048576 }
  healthy := true

/-- A feed channel. -/
def src (f : FeedId) (c : Chan) : SlotSource := ⟨f, c⟩

/-- The 5.1 program of section 7.8 as program 0, settled at Dcur 4,715 with its reserve of 5. -/
def surround : State :=
  ((({ ready with freePages := (List.range 4096).drop 30 }.setFeed 2 (lockedFeed .k48)).setFeed 4
    (lockedFeed .k44)).setFeed 5 (lockedFeed .k96)).setProg 0
    { state := .running, slots := 6, weights := [.unity, .unity, .unity, .excluded, .surround, .surround]
      sets := #v[some [src 2 .a, src 2 .b, src 4 .a, src 4 .b, src 5 .a, src 5 .b], none, none, none]
      stack := [0], outLevel := 480
      delay := { reserve := 5, chain := List.range 30, ltgt := 4800, dtgt := 4715, dcur := 4715 } }

/-- Program 4 of the worked sequence of section 3.5, DEFINED with two sets and a reserve of 2: feed 8 is not healthy and
feed 12 is LOCKED at 88.2 kHz. -/
def backup : State :=
  ({ ready with freePages := (List.range 4096).drop 4 }.setFeed 12 (lockedFeed .k88)).setProg 4
    { state := .defined, slots := 2, weights := [.unity, .unity]
      sets := #v[some [src 8 .a, src 8 .b], some [src 12 .a, src 12 .b], none, none]
      delay := { reserve := 2, chain := [0, 1, 2, 3] } }

/-- A change of program 4 of `backup`. -/
def with4 (g : Program → Program) : State := backup.onProg 4 g

/-- Program 4 running on its rank 1, at full level. -/
def onRank1 : State := with4 fun g => { g with state := .running, stack := [1], outLevel := 480 }

/-- Program 4 running on ranks 0 and 1 with both feeds healthy, at full level. -/
def onStack : State :=
  (onRank1.setFeed 8 (lockedFeed .k48)).onProg 4 fun g => { g with stack := [0, 1] }

/-- A message is addressed, in its carried-out form, and the part takes it. -/
def takes (s : State) (m : Msg) : Bool :=
  !s.inReset && s.rx.state != .busy && !m.broadcast && s.unitAddr != 31 && !m.check

theorem commands_of {s : State} {m : Msg} (h : takes s m = true) : Commands s m := by
  simp only [takes, Bool.and_eq_true, bne_iff_ne, ne_eq, Bool.not_eq_true'] at h
  exact ⟨⟨h.1.1.1.1, h.1.1.1.2, h.1.1.2, h.1.2⟩, h.2⟩

/-! ## What WellFormed refuses -/

theorem test_wf_refuses_long_body : Instr.wf (.ident { body := List.replicate 161 0 }) = false := by decide +kernel

theorem test_wf_takes_full_body : Instr.wf (.ident { body := List.replicate 160 0 }) = true := by decide +kernel

/-- IDENT's own kind byte is no bad kind; the reply mark, an unknown kind, and the check form of a query are (R151). -/
theorem test_wf_refuses_good_kind :
    Instr.wf (.badKindFrame 0x01 {}) = false ∧ Instr.wf (.badKindFrame 0x81 {}) = true ∧
      Instr.wf (.badKindFrame 0x05 {}) = true ∧ Instr.wf (.badKindFrame 0x41 {}) = true := by decide +kernel

/-- The opcode table gives no row any bits: no word spells a command. -/
theorem test_no_word_spells : decodeTableWord 8 0x01 = none ∧ ready.withFetchWord 8 0x01 = ready := ⟨rfl, rfl⟩

/-! ## Arithmetic and identifiers of the manual -/

/-- 00_scope.md section 5, and section 5.4. -/
theorem test_means_round : mean [-179, -180] = -179 ∧ mean [-182, -178, -181, -179] = -180 := by decide +kernel

/-- R28 and the text after R29: the steps of the window ends and of the two spans of 44.1 kHz. -/
theorem test_steps_of_spans :
    stepOf 49643 = 692137 ∧ stepOf 16221 = 2118226 ∧ stepOf 35665 = 963402 ∧ stepOf 35666 = 963375 := by decide +kernel

/-- R29: m − R = −27 moves R by −2, and +27 moves it by +2. -/
theorem test_ratio_moves_a_sixteenth : updatedRatio 963402 963375 = 963400 ∧ updatedRatio 963375 963402 = 963377 := by
  decide +kernel

/-- Section 8.1: FEED_ERRORS of feed 7, NO_SOURCE of program 2 and ON_BACKUP of program 7. -/
theorem test_entry_identifiers :
    (feedEntry 7 .feedErrors).val = 37 ∧ (progEntry 2 .noSource).val = 99 ∧ (progEntry 7 .onBackup).val = 135 := by
  decide +kernel

/-- The window ends of R16, and a span between two windows. -/
theorem test_windows_of_classes :
    spanVerdict none ⟨16221, false⟩ = some .k96 ∧ spanVerdict none ⟨18010, false⟩ = some .k88 ∧
      spanVerdict none ⟨33095, false⟩ = some .k48 ∧ spanVerdict none ⟨35309, false⟩ = some .k44 ∧
      spanVerdict none ⟨49643, false⟩ = some .k32 ∧ spanVerdict none ⟨33096, false⟩ = none ∧
      spanVerdict (some .k44) ⟨32768, false⟩ = none ∧ spanVerdict none ⟨32768, true⟩ = none := by decide +kernel

/-- R84, by hand: a power of 1 has B 0, a power of 1/10 has B −100, and one of 0 has B −900. -/
theorem test_block_levels : blockLevel 1 = 0 ∧ blockLevel (1 / 10) = -100 ∧ blockLevel 0 = -900 := by decide +kernel

/-! ## Feed ports -/

/-- The burst of section 1.4's worked example on one channel: true for a good subframe. -/
def burst : List Bool :=
  List.replicate 3 false ++ [true] ++ List.replicate 6 false ++ List.replicate 40 true ++ [false] ++
    List.replicate 63 true

/-- One subframe of the burst. -/
def judged (c : Channel) (good : Bool) : Channel := if good then (c.takeGood 7).1 else c.takeBad.1

/-- After subframe 114: bad_run 5, muted, good_run 63, conceal_count 7, mute_count 1; and 115 ends the mute. -/
theorem test_burst_of_worked_example :
    burst.foldl judged {} = { badRun := 5, muted := true, goodRun := 63, lastGood := 7, concealCount := 7, muteCount := 1 } ∧
      (burst.foldl judged {}).takeGood 9 = ({ lastGood := 9, concealCount := 7, muteCount := 1 }, 9) := by decide +kernel

/-- A port in reception inside a span, on an enabled feed in SEARCH. -/
def receiving (g : Port → Port) : State :=
  ready.setFeed 6
    { port := g { enable := true, lossTimer := some 0, spanOpen := true, frame := .handed }, conv := { state := .search }
      healthy := true }

/-- R16, R24, R37: a span of 32,768 ticks in SEARCH sets the class to 48 kHz with R = 1,048,576 and U = 1,046,528; the
converter is in TRACK, SRC_UNLOCKED is true, and FEED_CLASS is queued from none to code 3. -/
theorem test_frameEdge_sets_class :
    let t := after (exec (.frameEdge 6 true) (receiving fun q => { q with edgeCount := 63, spanCounter := 32768 }))
    ((t.feed 6).conv.state, (t.feed 6).conv.cls, (t.feed 6).conv.ratio, (t.feed 6).conv.stepUsed) =
        (.track, some .k48, 1048576, 1046528) ∧
      t.feedCond 6 .srcUnlocked = true ∧ (t.notices.map fun n => (n.kind, n.detail.take 2)) = [(.feedClass, [0, 3])] := by
  decide +kernel

/-- R8: a subframe with odd parity conceals, and the B subframe hands the frame over (R2). -/
theorem test_subframeJudged_conceals :
    let s := receiving fun q => { q with frame := .opened, chA := { lastGood := 5 } }
    let t := after (exec (.subframeJudged 6 0x80#32) s)
    (t.feed 6).port.frame = .gotA 5 ∧ (t.feed 6).port.chA.concealCount = 1 ∧
      ((after (exec (.subframeJudged 6 0x300#32) t)).feed 6).port.frame = .handed := by decide +kernel

/-- R13: the loss at 3,072 ticks in SEARCH makes FEED_LOST true and the feed not healthy, and raises its entry. -/
theorem test_feedLossTimeout_declares :
    let t := after (exec (.feedLossTimeout 6 true) (receiving fun q => { q with lossTimer := some 3072 }))
    t.feedCond 6 .feedLost = true ∧ (t.feed 6).healthy = false ∧ (t.entry 30).state = .active ∧ t.lampMajor = true ∧
      t.attn = true := by decide +kernel

/-- R70, R132: by default the loss of feed 4 is a failover trigger, in either order of the two notices, and so is its
disable (R5): program 0, whose current set names it, begins a failover swap. -/
theorem test_feed_lost_or_disabled_triggers :
    let s := surround.onPort 4 fun q => { q with lossTimer := some 3072 }
    let w (t : State) := ((t.prog 0).swap, (t.feed 4).healthy)
    let swap : Swap := { phase := .fadeOut, cause := some .failover, origin := some 0 }
    w (after (exec (.feedLossTimeout 4 true) s)) = (swap, false) ∧ w (after (exec (.feedLossTimeout 4 false) s)) = (swap, false) ∧
      w (after (exec (.feedConfig (msg [4, 0, 0, 1, 1])) s)) = (swap, false) := by decide +kernel

/-- R4, R21: enable starts the port and the converter; the reply repeats the stored fields. -/
theorem test_feedConfig_enables :
    let t := after (exec (.feedConfig (msg [6, 1, 3, 1, 0])) ready)
    replyOf t = [0, 1, 3, 1, 0] ∧ (t.feed 6).conv.state = .search ∧ (t.feed 6).port.lossTimer = some 0 ∧
      (t.feed 6).healthy = true := by decide +kernel

/-- R18: the clear flag clears the counters that the reply reported. -/
theorem test_feedQuery_clears :
    let s := receiving fun q => { q with chA := { concealCount := 7, muteCount := 1 } }
    let t := after (exec (.feedQuery (msg [6, 1])) s)
    (replyOf t).length = 37 ∧ (t.feed 6).port.chA = {} := by decide +kernel

/-! ## The worked 5.1 program (section 7.8) -/

/-- DELAY_TARGET with Ltgt 5,200: Dtgt 5,100, LATENCY_OVER true with its entry ACTIVE, and a SLEW upward. -/
theorem test_delayTarget_longer_target :
    let t := after (exec (.delayTarget (msg [0, 0, 0, 0x14, 0x50, 1, 0xE0, 2])) surround)
    (t.prog 0).delay.dtgt = 5100 ∧ t.progCond 0 .latencyOver = true ∧ (t.entry (progEntry 0 .latencyOver)).state = .active ∧
      ((t.prog 0).delay.op, (t.prog 0).delay.dir, (t.prog 0).delay.dcur) = (.slew, .up, 4715) := by decide +kernel

/-- R122: the distance 385 is a SLEW under a slew limit of 385 and a CUT under one of 384; R124: a SLEW is abandoned for
the CUT, and a CUT_IN goes on with the new Dtgt. -/
theorem test_delayTarget_slew_or_cut :
    let d (op : DelayOp) (limit : Nat) :=
      ((after (exec (.delayTarget (msg [0, 0, 0, 0x14, 0x50, 1, limit, 2]))
        (surround.onProg 0 fun g => { g with delay := { g.delay with op := op } }))).prog 0).delay
    ((d .none 129).op, (d .none 128).op, (d .slew 128).op) = (.slew, .cutOut, .cutOut) ∧
      ((d .cutIn 129).op, (d .cutIn 129).dtgt) = (.cutIn, 5100) := by decide +kernel

/-- The 5.1 program during its SLEW, after 100 steps. -/
def slewing : State :=
  (surround.setCondBit (progEntry 0 .latencyOver) true).onProg 0 fun g =>
    { g with delay := { g.delay with ltgt := 5200, dtgt := 5100, dcur := 4815, op := .slew, progress := 256 } }

/-- A class change during the SLEW: a no-match span puts feed 4 in SEARCH, Dtgt becomes 5,103, and the SLEW goes on. -/
theorem test_frameEdge_loses_class :
    let s := slewing.onPort 4 fun q => { q with spanOpen := true, edgeCount := 63, spanCounter := 34000 }
    let t := after (exec (.frameEdge 4 false) s)
    (t.feed 4).conv.state = .search ∧ (t.prog 0).delay.dtgt = 5103 ∧ (t.prog 0).delay.dcur = 4815 ∧
      (t.prog 0).delay.op = .slew ∧ t.progCond 0 .latencyOver = true := by decide +kernel

/-- R121: the step completes, and the next begins; R125: a step up from the bound itself, 5,100, ends at the bound. -/
theorem test_slewStepComplete_moves :
    let t := after (exec (.slewStepComplete 0) slewing)
    let u := after (exec (.slewStepComplete 0) (slewing.onProg 0 fun g => { g with delay := { g.delay with dcur := 5100 } }))
    ((t.prog 0).delay.dcur, (t.prog 0).delay.progress, (t.prog 0).delay.op) = (4816, 0, .slew) ∧
      (u.prog 0).delay.dcur = 5100 := by decide +kernel

/-- R114, R115: 6 × 5 = 30 pages from a free list of 4,096, and NO_ROOM for c × P above it (8 × 94 fits). -/
theorem test_delayReserve_takes_pages :
    let s := ready.setProg 0 { state := .defined, slots := 6 }
    replyOf (after (exec (.delayReserve (msg [0, 5])) s)) = [0, 5, 0, 30, 15, 226] ∧
      replyOf (after (exec (.delayReserve (msg [0, 5])) { s with freePages := List.range 29 })) = [0x12] := by
  decide +kernel

/-- R128: Ltgt 4,800, slew limit 480, code 2, L_src_max 37, trim_max 19, Dtgt 4,715, Dcur 4,715, no operation, P 5. -/
theorem test_delayQuery_reports :
    replyOf (after (exec (.delayQuery (msg [0])) surround)) =
      [0, 0, 0, 0x12, 0xC0, 1, 0xE0, 2, 37, 19, 0, 0, 0x12, 0x6B, 0, 0, 0x12, 0x6B, 0, 0, 0, 5, 0, 30, 0, 0, 0, 0, 0] := by
  decide +kernel

/-- R128: the progress of a step of 256 samples is reported as 0 to 255, in the two bytes after the operation. -/
theorem test_delayQuery_progress :
    ((replyOf (after (exec (.delayQuery (msg [0])) slewing))).drop 18).take 3 = [1, 0, 255] := by decide +kernel

/-- R129: 4,066 pages free, page 30 at the head, and program 0 with reserve 5 and 30 pages. -/
theorem test_poolQuery_reports :
    (replyOf (after (exec (.poolQuery (msg [])) surround))).take 11 = [0, 15, 226, 0, 30, 5, 0, 30, 0, 0, 0] := by
  decide +kernel

/-! ## The worked sequence of section 3.5 -/

/-- PROG_DEFINE of two slots: the reply repeats c and the codes of its slots. -/
theorem test_progDefine_taken :
    let t := after (exec (.progDefine (msg [4, 2, 1, 1, 0, 0, 0, 0, 0, 0])) ready)
    replyOf t = [0, 2, 1, 1, 0, 0, 0, 0, 0, 0] ∧ (t.prog 4).state = .defined ∧ (t.prog 4).delay.reserve = 0 := by
  decide +kernel

/-- SET_DEFINE of rank 2 with a channel twice is refused with BAD_VALUE; with two channels it is taken. -/
theorem test_setDefine_refuses_duplicate :
    replyOf (after (exec (.setDefine (msg [4, 2, 12, 0, 12, 0])) backup)) = [0x23] ∧
      replyOf (after (exec (.setDefine (msg [4, 2, 12, 0, 12, 1])) backup)) = [0, 2, 2, 12, 0, 12, 1] := by decide +kernel

/-- PROG_START with no reserve: WRONG_STATE. With one: OK, rank 1, NO_SOURCE false, and the state after it. -/
theorem test_progStart_on_backup :
    let t := after (exec (.progStart (msg [4])) backup)
    replyOf (after (exec (.progStart (msg [4])) (with4 fun g => { g with delay := {} }))) = [0x11] ∧
      replyOf t = [0, 1, 0] ∧ (t.prog 4).stack = [1] ∧ (t.prog 4).delay.dtgt = 0 ∧ t.progCond 4 .latencyUnder = true ∧
      t.progCond 4 .onBackup = true ∧ (t.notices.any fun n => n.kind == .sourceChanged && n.detail == [255, 1, 0, 0, 0, 0]) = true := by
  decide +kernel

/-- PROG_STOP at level 300, and PROG_START refused with BUSY while STOPPING. -/
theorem test_progStop_fades :
    let t := after (exec (.progStop (msg [4])) (onRank1.onProg 4 fun g => { g with outLevel := 300, outDir := .fadeIn }))
    ((t.prog 4).state, (t.prog 4).outLevel, (t.prog 4).outDir, (t.prog 4).stack) = (.stopping, 300, .fadeOut, [1]) ∧
      replyOf (after (exec (.progStart (msg [4])) { t with rx := {} })) = [0x10] := by decide +kernel

/-- R53: at output level 0 the stop fade ends at the message, and the program is DEFINED at once. -/
theorem test_progStop_at_zero :
    let t := after (exec (.progStop (msg [4])) (onRank1.onProg 4 fun g => { g with outLevel := 0 }))
    replyOf t = [0] ∧ ((t.prog 4).state, (t.prog 4).stack) = (.defined, []) ∧
      t.notices.getLast?.map (fun n => (n.kind, n.detail)) = some (.programStopped, [1, 0, 0, 0, 0, 0]) := by
  decide +kernel

/-- The stop fade ends: DEFINED, an empty stack, ON_BACKUP false, PROGRAM_STOPPED with rank 1. -/
theorem test_stopFadeEnd_defines :
    let s := onRank1.setCondBit (progEntry 4 .onBackup) true |>.onProg 4 fun g => { g with state := .stopping, outLevel := 0 }
    let t := after (exec (.stopFadeEnd 4) s)
    ((t.prog 4).state, (t.prog 4).stack) = (.defined, []) ∧ t.progCond 4 .onBackup = false ∧
      t.notices.getLast?.map (fun n => (n.kind, n.detail)) = some (.programStopped, [1, 0, 0, 0, 0, 0]) := by decide +kernel

/-- R46: PROG_CLEAR returns the four pages to the tail of the free list. -/
theorem test_progClear_returns_pages :
    let t := after (exec (.progClear (msg [4])) backup)
    replyOf t = [0] ∧ t.freePages.length = 4096 ∧ t.freePages.drop 4092 = [0, 1, 2, 3] := by decide +kernel

/-- R60: state, c, weights and the stack of a program on its rank 1. -/
theorem test_progQuery_reports :
    let r := replyOf (after (exec (.progQuery (msg [4])) onRank1))
    r.length = 109 ∧ r.take 5 = [0, 2, 2, 1, 1] := by decide +kernel

/-- R55: PROG_RESTART keeps the stack and flushes the ring. -/
theorem test_progRestart_flushes :
    let s := onRank1.onProg 4 fun g => { g with delay := { g.delay with flushCounter := 9, writePos := 9 } }
    let t := after (exec (.progRestart (msg [4])) s)
    replyOf t = [0] ∧ (t.prog 4).stack = [1] ∧ ((t.prog 4).delay.flushCounter, (t.prog 4).delay.writePos) = (0, 0) := by
  decide +kernel

/-! ## Failover (section 4) -/

/-- A swap of program 4 at its foot, with a cause. -/
def atFoot (c : SwapCause) (s : State) : State :=
  s.onProg 4 fun g => { g with swap := { phase := .fadeOut, level := 0, cause := some c, origin := g.currentRank, selected := some 1 } }

/-- R66: from rank 0 with feed 8 not healthy, the stack ends at rank 1, pushed on it, and ON_BACKUP is true. -/
theorem test_swapSwitch_pushes :
    let t := after (exec (.swapSwitch 4) (atFoot .failover (onRank1.onProg 4 fun g => { g with stack := [0] })))
    (t.prog 4).stack = [0, 1] ∧ (t.prog 4).swap.phase = .fadeIn ∧ t.progCond 4 .onBackup = true := by decide +kernel

/-- R67: a return pops the stack. -/
theorem test_swapSwitch_returns :
    ((after (exec (.swapSwitch 4) (atFoot .return onStack))).prog 4).stack = [0] := by decide +kernel

/-- R78: a select of rank 0 starts a swap, and one of a rank that is not defined is refused. -/
theorem test_sourceSelect_starts :
    let t := after (exec (.sourceSelect (msg [4, 0])) onRank1)
    replyOf t = [0, 0] ∧ (t.prog 4).swap = { phase := .fadeOut, cause := some .select, origin := some 1, selected := some 0 } ∧
      replyOf (after (exec (.sourceSelect (msg [4, 3])) onRank1)) = [0x11] := by decide +kernel

/-- R79: a hold of 5 is clamped to 10, and the reply is ADJUSTED. -/
theorem test_failoverConfig_clamps :
    replyOf (after (exec (.failoverConfig (msg [4, 1, 0, 5, 0])) backup)) = [1, 1, 0, 10, 0] := by decide +kernel

/-- R69: the end of a swap. -/
theorem test_swapEnd_clears :
    let s := onRank1.onProg 4 fun g => { g with swap := { phase := .fadeIn, level := 480, cause := some .failover, origin := some 0 } }
    ((after (exec (.swapEnd 4) s)).prog 4).swap = {} := by decide +kernel

/-- R74: a return that fell due begins. -/
theorem test_returnDue_begins :
    let s := onStack.onProg 4 fun g => { g with returnTimer := 300, returnFell := true }
    let t := after (exec (.returnDue 4) s)
    ((t.prog 4).swap.phase, (t.prog 4).swap.cause, (t.prog 4).returnTimer) = (.fadeOut, some .return, 0) := by decide +kernel

/-- R71: SILENCE with action FAILOVER marks rank 1 and starts a swap of cause SILENCE. -/
def silent : State :=
  (onRank1.setEntry (progEntry 4 .silence) { config := ⟨.minor, 0, 10, .failover⟩ }).onProg 4 fun g =>
    { g with loud := { g.loud with silenceTimer := 0 } }

theorem test_silenceTimeout_marks :
    let t := after (exec (.silenceTimeout 4) silent)
    t.progCond 4 .silence = true ∧ (t.prog 4).markAt 1 = true ∧ (t.prog 4).swap.cause = some .silence := by decide +kernel

/-! ## Loudness and the clock -/

/-- R99: a target of −50 is clamped to −100 and a window of 1,000 to 300; the reply is ADJUSTED with the stored copy. -/
theorem test_loudConfig_clamps :
    let t := after (exec (.loudConfig (msg [4, 0, 0xFF, 0xCE, 0, 200, 0, 120, 0, 5, 0, 20, 0, 0, 3, 0xE8, 0xFF, 0xF6, 0xFF, 0xB0,
      0xFD, 0xA8, 0, 50, 0])) backup)
    (t.prog 4).loud.pending = { target := -100, window := 300 } ∧ (replyOf t).take 4 = [1, 0, 0xFF, 0x9C] ∧
      (t.prog 4).loud.active = {} := by decide +kernel

theorem test_loudRestart_empties :
    let s := onRank1.onProg 4 fun g => { g with loud := { g.loud with window := [-200], history := [-200], silenceTimer := 3, ownGain := -4 } }
    let l := ((after (exec (.loudRestart (msg [4])) s)).prog 4).loud
    (l.window, l.history, l.silenceTimer, l.ownGain) = ([], [], 50, -4) := by decide +kernel

/-- R97: with nothing measured, B and M and I are 0x8000. -/
theorem test_loudQuery_reports :
    (replyOf (after (exec (.loudQuery (msg [4])) onRank1))).take 12 = [0, 0x80, 0, 0x80, 0, 0, 0x80, 0, 0, 0, 0, 100] := by
  decide +kernel

/-- R84 to R89 at a close, by hand: full-scale squares in both slots have power 2, so B = 30 and M = 30, admitted. -/
theorem test_close_measures :
    let l := ({ accumulators := [4800, 4800] } : Loudness).measureBlock [.unity, .unity] false
    (l.lastB, l.lastM, l.window, l.history, l.lastVerdict) = (some 30, some 30, [30], [30], .admitted) := by decide +kernel

/-- R101, R102: with I at 30 and the target at −240 the correction is −200, and G falls by 20. -/
theorem test_close_slews_gain : gainLaw { window := [30] } true = -20 := by decide +kernel

set_option maxRecDepth 3000 in
/-- R135, R155: a close counts a running timer, and the counter advances. -/
theorem test_blockClose_counts :
    let s := ready.setEntry 37 { config := defaultConfig 37, state := .rising, timer := 5 }
    let t := after (exec (.blockClose {}) s)
    (t.entry 37).timer = 4 ∧ t.blockCounter = 1 := by decide +kernel

set_option maxRecDepth 3000 in
/-- R62, R70, R135: a close that brings a FAILOVER entry's timer to 0 raises it, stamped with the counter just advanced,
and the feed trigger begins a swap. -/
theorem test_blockClose_triggers :
    let s := (onRank1.setEntry (feedEntry 12 .feedLost) { config := ⟨.major, 5, 10, .failover⟩, state := .rising, timer := 1 })
    let t := after (exec (.blockClose {}) s)
    ((t.entry 60).state, (t.entry 60).stamp, (t.feed 12).healthy) = (.active, 1, false) ∧
      (t.prog 4).swap = { phase := .fadeOut, cause := some .failover, origin := some 1 } := by decide +kernel

/-- Program 4 with one block to go to SILENCE, whose entry rises in one block, and with a silent block behind it. -/
def nearSilence : State :=
  (onRank1.setEntry (progEntry 4 .silence) { config := ⟨.minor, 1, 10, .none⟩ }).onProg 4 fun g =>
    { g with loud := { g.loud with silenceTimer := 1, accumulators := [0, 0] } }

set_option maxRecDepth 3000 in
/-- R93, R135: SILENCE becomes true at the close that brings its timer to 0; the alarm timers of that close count it
already (1 − 1, and the entry is raised), or count before it (RISING at 1). -/
theorem test_blockClose_silence :
    let early := after (exec (.blockClose {}) nearSilence)
    let late := after (exec (.blockClose { first := [.alarm (progEntry 4 .silence)] }) nearSilence)
    early.progCond 4 .silence = true ∧ (early.prog 4).loud.silenceTimer = 0 ∧
      (early.entry (progEntry 4 .silence)).state = .active ∧ late.progCond 4 .silence = true ∧
      ((late.entry (progEntry 4 .silence)).state, (late.entry (progEntry 4 .silence)).timer) = (.rising, 1) := by
  decide +kernel

/-- R106, R107: 10^(−10/200) is 0.891250938…, 3,827,893,631 whole parts of 2^-32; 10^(1/200) is 4,344,700,673. -/
theorem test_multiplier_parts : powerUnits (-10 / 200) = 3827893631 ∧ powerUnits (1 / 200) = 4344700673 := by decide +kernel

/-- R52, R59, R116: at an output sample a starting program's level rises by 1 and its ring counts a sample. -/
theorem test_outputSample_moves :
    let s := onRank1.onProg 4 fun g => { g with outLevel := 0, outDir := .fadeIn }
    let t := after (exec .outputSample s)
    ((t.prog 4).outLevel, (t.prog 4).delay.flushCounter, (t.prog 4).delay.writePos, t.sampleInBlock) = (1, 1, 1, 1) := by
  decide +kernel

/-- R52, R59, R107, R109: a frame of peak 3/2 leaves the lookahead under a ceiling of full scale; the gain formed is 2/3,
the samples 1 and −1/2 leave at half level as 0x400000 and 0xE00000, and the sample is held down. -/
theorem test_outputSample_limits :
    let s := onRank1.onProg 4 fun g =>
      { g with
        outLevel := 240
        loud := { g.loud with
          active := { g.loud.active with ceiling := 0 }
          lookahead := [3 / 2, -3 / 4] :: List.replicate 47 [0, 0] } }
    let t := after (exec .outputSample s)
    ((t.ports[4])[0], (t.ports[4])[1], (t.ports[4])[2]) = (0x40000000, 0xE0000000, 0) ∧ (t.prog 4).loud.heldDown = 1 := by
  decide +kernel

theorem test_startFadeEnd_ends :
    let s := onRank1.onProg 4 fun g => { g with outDir := .fadeIn }
    ((after (exec (.startFadeEnd 4) s)).prog 4).outDir = .none := by decide +kernel

/-- A program in a CUT of R123 at a level. -/
def cutting (op : DelayOp) (level dcur : Nat) : State :=
  onRank1.onProg 4 fun g =>
    { g with outLevel := level, delay := { g.delay with ltgt := 1067, dtgt := 1000, dcur := dcur, op := op } }

theorem test_cutJump_jumps :
    let d := ((after (exec (.cutJump 4) (cutting .cutOut 0 5))).prog 4).delay
    (d.dcur, d.op) = (1000, .cutIn) := by decide +kernel

theorem test_cutInEnd_settles :
    let t := after (exec (.cutInEnd 4) (cutting .cutIn 480 1000))
    (t.prog 4).delay.op = .none ∧ (t.notices.map fun n => (n.kind, n.detail)) = [(.delaySettled, [0, 0, 3, 0xE8, 0, 0])] := by
  decide +kernel

/-! ## Alarms, the line and the resets -/

/-- R143: raise delay 256 is clamped to 255; FAILOVER on HOUSE_REF_LOST is refused with BAD_VALUE. -/
theorem test_alarmConfig_stores :
    replyOf (after (exec (.alarmConfig (msg [37, 3, 1, 0, 0, 7, 1])) ready)) = [1, 3, 0, 255, 0, 7, 1] ∧
      replyOf (after (exec (.alarmConfig (msg [136, 3, 0, 0, 0, 0, 1])) ready)) = [0x23] := by decide +kernel

/-- An entry as it stands, with its configuration by default. -/
def withEntry (e : EntryId) (st : EntryState) (latched acked : Bool) : State :=
  ready.setEntry e { config := defaultConfig e, state := st, latched := latched, acknowledged := acked }

/-- R137: the raise latches, counts, and queues ALARM_RAISED with identifier, severity and count. -/
theorem test_alarmRaiseDelayExpiry_raises :
    let t := after (exec (.alarmRaiseDelayExpiry 37) (withEntry 37 .rising false false))
    (t.entry 37).state = .active ∧ (t.entry 37).latched = true ∧ t.lampMinor = true ∧
      (t.notices.map fun n => (n.kind, n.source, n.detail)) = [(.alarmRaised, .feed 7, [37, 2, 1, 0, 0, 0])] := by
  decide +kernel

theorem test_alarmClearDelayExpiry_unlatches :
    ((after (exec (.alarmClearDelayExpiry 37) (withEntry 37 .falling true true))).entry 37).latched = false ∧
      ((after (exec (.alarmClearDelayExpiry 37) (withEntry 37 .falling true false))).entry 37).latched = true := by
  decide +kernel

/-- Program 4 on rank 1 at fade level 200 in a swap phase, ON_BACKUP true, with the FEED_LOST entry of feed 12 in a
state. -/
def onFeed12 (st : EntryState) (ph : SwapPhase) : State :=
  ((onRank1.setCondBit (progEntry 4 .onBackup) true).setEntry (feedEntry 12 .feedLost)
    { config := ⟨.major, 0, 0, .failover⟩, state := st }).onProg 4 fun g => { g with swap := { phase := ph, level := 200 } }

/-- R62, R70: the raise makes feed 12 unhealthy; program 4, with no other eligible set, begins a failover swap, and so
does one in FADE_IN, while one in FADE_OUT goes on. -/
theorem test_alarmRaiseDelayExpiry_triggers :
    let t (ph : SwapPhase) := after (exec (.alarmRaiseDelayExpiry (feedEntry 12 .feedLost)) (onFeed12 .rising ph))
    (((t .none).feed 12).healthy, (t .none).progCond 4 .noSource) = (false, true) ∧
      ((t .none).prog 4).swap = { phase := .fadeOut, level := 200, cause := some .failover, origin := some 1 } ∧
      ((t .fadeIn).prog 4).swap = ((t .none).prog 4).swap ∧
      ((t .fadeOut).prog 4).swap = { phase := .fadeOut, level := 200 } := by decide +kernel

/-- R76: program 4 on rank 0 with NO_SOURCE true; the release makes feed 12 healthy, NO_SOURCE ends, and a failover swap
begins. -/
theorem test_alarmClearDelayExpiry_triggers :
    let s := ((onFeed12 .falling .none).setFeed 12 { lockedFeed .k88 with healthy := false }).setCondBit
      (progEntry 4 .noSource) true
    let t := after (exec (.alarmClearDelayExpiry (feedEntry 12 .feedLost)) (s.onProg 4 fun g => { g with stack := [0] }))
    ((t.feed 12).healthy, t.progCond 4 .noSource) = (true, false) ∧
      (t.prog 4).swap = { phase := .fadeOut, level := 200, cause := some .failover, origin := some 0 } := by decide +kernel

/-- R141: 0xFF acknowledges all, and counts one entry that was latched. -/
theorem test_alarmAck_counts :
    let t := after (exec (.alarmAck (msg [0xFF])) (withEntry 37 .clear true false))
    replyOf t = [0, 0xFF, 1] ∧ (t.entry 37).latched = false ∧ t.lampMinor = false := by decide +kernel

/-- R144: entry 37 by default is MINOR with delays 5 and 10 and action FAILOVER. -/
theorem test_alarmQuery_reports :
    replyOf (after (exec (.alarmQuery (msg [37])) ready)) = [0, 37, 2, 5, 10, 1, 0, 0, 0, 0, 0, 0, 0, 0] := by decide +kernel

/-- R145: one entry listed from 37 on, ACTIVE, MINOR, latched: 2 + 8 + 16; none from 38 on. -/
theorem test_alarmScan_lists :
    replyOf (after (exec (.alarmScan (msg [37])) (withEntry 37 .active true false))) = [0, 1, 0xFF, 37, 26] ∧
      replyOf (after (exec (.alarmScan (msg [38])) (withEntry 37 .active true false))) = [0, 0, 0xFF] := by decide +kernel

/-- R155, R160. -/
theorem test_ident_reports : replyOf (after (exec (.ident (msg [])) ready)) = [0x00, 0x0B, 0x18, 0x01, 3, 0, 0, 0, 0, 0, 0] := by
  decide +kernel

/-- R156. -/
theorem test_linkStats_clears :
    let t := after (exec (.linkStats (msg [1])) { ready with rx := { checkFail := 258, gap := 2, overrun := 3 } })
    replyOf t = [0, 1, 2, 0, 2, 0, 3] ∧ (t.rx.checkFail, t.rx.gap, t.rx.overrun) = (0, 0, 0) := by decide +kernel

/-- R154, R164: one notice fetched of two, with the unit in the missed set; n = 0 is adjusted to 1. -/
theorem test_notices_fetches :
    let n : Notice := ⟨.restarted, .unit, [0, 0, 0, 0, 0, 0], 258⟩
    let t := after (exec (.notices (msg [0])) { ready with notices := [n, n], missed := 0x80000000 })
    replyOf t = [1, 0x80, 0, 0, 0, 1, 7, 31, 0, 0, 0, 0, 0, 0, 0, 0, 1, 2] ∧ t.notices = [n] ∧ t.missed = 0 := by
  decide +kernel

theorem test_restart_waits :
    let t := after (exec (.restart (msg [])) ready)
    replyOf t = [0] ∧ t.restart = .afterReply ∧ (after (exec .replySent t)).restart = .due := by decide +kernel

/-- R151, R162: an unknown kind 0x05 to unit 3 is answered 5A 83 85 01 20 and the check byte D7. -/
theorem test_badKindFrame_answered :
    (after (exec (.badKindFrame 0x05 {}) ready)).reply = some [0x5A, 0x83, 0x85, 0x01, 0x20, 0xD7] := by decide +kernel

/-- R147: a start byte in HUNT; R148: a length above 160. -/
theorem test_byteReceived_starts :
    (after (exec (.byteReceived 0x5A) ready)).rx.state = .address ∧
      (after (exec (.byteReceived 161) { ready with rx := { state := .length, address := 3 } })).rx =
        { state := .hunt, address := 3, checkFail := 1 } := by decide +kernel

/-- R147 at 115,200 bit/s: 4 byte times are 8,533 1/3 master ticks. -/
theorem test_receiverGapTimeout_counts :
    (after (exec .receiverGapTimeout { ready with rx := { state := .body, gapTimer := 8534 } })).rx.gap = 1 ∧
      (after (exec .receiverGapTimeout { ready with rx := { state := .body, gapTimer := 8533 } })).rx.gap = 0 := by
  decide +kernel

theorem test_replySent_hunts :
    (after (exec .replySent { ready with rx := { state := .busy }, reply := some [] })).rx.state = .hunt := by
  decide +kernel

theorem test_houseRefEdge_follows :
    (after (exec .houseRefEdge ready)).monitor = { lost := false, timer := some 0, clock := .following } := by decide +kernel

/-- R39: at 2,048 ticks, and not one tick before. -/
theorem test_houseRefLossTimeout_loses :
    (after (exec .houseRefLossTimeout { ready with monitor := { timer := some 2048 } })).cond houseRefEntry = true ∧
      (after (exec .houseRefLossTimeout { ready with monitor := { timer := some 2047 } })).cond houseRefEntry = false := by
  decide +kernel

/-- R158: RESTARTED alone, with stamp 0, and the pages of program 4 kept. -/
theorem test_unitRestart_keeps_pages :
    let t := after (exec .unitRestart { onRank1 with blockCounter := 77 })
    (t.notices.map fun n => (n.kind, n.source, n.stamp)) = [(.restarted, .unit, 0)] ∧ t.attn = true ∧
      ((t.prog 4).state, (t.prog 4).delay.chain) = (.defined, [0, 1, 2, 3]) := by decide +kernel

theorem test_powerOnResetStart_silences :
    let t := after (exec .powerOnResetStart { ready with reply := some [1], attn := true, notices := [⟨.restarted, .unit, [], 0⟩] })
    (t.reply, t.attn, t.inReset) = (none, false, true) := by decide +kernel

/-- R146: the straps read at the end of the reset. -/
theorem test_powerOnReset_reads_straps :
    let t := after (exec (.powerOnReset 9 2) onRank1)
    (t.unitAddr, t.baud, (t.prog 4).state, t.freePages.length) = (9, 2, .undefined, 4096) := by decide +kernel

/-! ## Witnesses: for every statement with hypotheses, a state and operands that meet them -/

theorem test_witness_StepTakesFrontCommand :
    ({ ready with pending := [.outputSample, .houseRefEdge] } : State).pending = .outputSample :: [.houseRefEdge] := rfl

/-- A part with nothing waiting: in a power-on reset, with no event due, and with an output sample due. -/
theorem test_witness_StepTakesFrontCommand_idle :
    ready.pending = [] ∧ ({ ready with inReset := true } : State).inReset = true ∧ ready.inReset = false ∧
      dueEvents ready = [] ∧ dueEvents { ready with tick := 511 } = [] ∧
      dueEvents { ready with tick := 512 } = [.outputSample] := by decide +kernel

theorem test_witness_CommandsKeepFrame :
    (∃ t, exec .houseRefEdge ready = .next t) ∧ (∀ u b, Instr.houseRefEdge ≠ .powerOnReset u b) ∧
      Instr.houseRefEdge.message = none := ⟨⟨_, rfl⟩, by simp, rfl⟩

theorem test_witness_ResetHoldsPart :
    ({ ready with inReset := true } : State).inReset = true ∧ Instr.houseRefEdge ≠ .powerOnResetStart ∧
      ∀ u b, Instr.houseRefEdge ≠ .powerOnReset u b := ⟨rfl, by simp, by simp⟩

theorem test_witness_UnitRestartValues : ready.inReset = false ∧ onRank1.inReset = false := by decide +kernel

/-- Bodies of 0 and of 160 bytes, to the unit's address and to 31. -/
theorem test_witness_FrameIsMessage :
    ready.rx.state = .hunt ∧ (List.replicate 160 (0 : Byte)).length ≤ 160 ∧ (3 = ready.unitAddr ∨ (3 : BitVec 5) = 31) ∧
      (Kind.progStart.isQuery && true) = false ∧ (Kind.ident.isQuery && false) = false := by decide +kernel

/-- A receiver in a state. -/
def rxIn (st : RxState) : State := { ready with rx := { state := st } }

/-- The gap's two sides meet at 8,533 1/3 master ticks for 115,200 bit/s. -/
theorem test_witness_ReceiverEvents :
    (rxIn .hunt).inReset = false ∧ (rxIn .hunt).rx.state = .hunt ∧ (0x59 : Byte) ≠ 0x5A ∧ (rxIn .busy).rx.state = .busy ∧
      ((rxIn .check).rx.state = .check ∧
        ([(rxIn .check).rx.address, (rxIn .check).rx.kind, (rxIn .check).rx.length] ++ (rxIn .check).rx.body ++
          [1]).foldl (· + ·) 0 ≠ 0) ∧
      40 * 24576000 ≤ 8534 * lineRate ready.baud ∧ 8533 * lineRate ready.baud < 40 * 24576000 ∧
      (rxIn .skip).rx.state ≠ .hunt ∧ (rxIn .skip).rx.state ≠ .busy := by decide +kernel

/-- A length on both sides of 160, a frame of unit 4, a reply of the unit itself, and a skip of one byte. -/
theorem test_witness_ReceiverEvents_skip :
    let s (a : Byte) : State := { ready with rx := { state := .length, address := a } }
    let k : State := { ready with rx := { state := .skip, left := 1 } }
    (s 3).inReset = false ∧ (s 3).rx.state = .length ∧ 160 < (161 : Byte).toNat ∧ (160 : Byte).toNat ≤ 160 ∧
      (s 0x83).rx.address.getLsbD 7 = true ∧
      ((s 4).rx.address.truncate 5 ≠ (s 4).unitAddr ∧ (s 4).rx.address.truncate 5 ≠ 31#5) ∧
      k.rx.state = .skip ∧ ([0] : List Byte) ≠ [] ∧ ([0] : List Byte).length = k.rx.left := by decide +kernel

/-- The three bad kinds, a wrong length, the first index that names nothing of each range, and a refusal. -/
theorem test_witness_RefusalsAnswered :
    ready.inReset = false ∧ ready.rx.state ≠ .busy ∧ ready.unitAddr ≠ 31 ∧ (0x81 : Byte).getLsbD 7 = true ∧
      (∀ k : Kind, k.code ≠ (0x05 : Byte).toNat % 64) ∧
      (Kind.ident.code = (0x41 : Byte).toNat % 64 ∧ Kind.ident.isQuery = true ∧ (0x41 : Byte).getLsbD 6 = true) ∧
      (Instr.kind (.progStop (msg [])) = some .progStop ∧ Instr.message (.progStop (msg [])) = some (msg []) ∧
        takes ready (msg []) = true ∧ Kind.progStop.lengthOk (msg []).body.length = false) ∧
      (Kind.feedQuery.lengthOk (msg [16, 0]).body.length = true ∧ (msg [16, 0]).body.head? = some 16 ∧
        16 ≤ (16 : Byte).toNat) ∧
      (Kind.alarmAck.lengthOk (msg [137]).body.length = true ∧ 137 ≤ (137 : Byte).toNat ∧ (137 : Byte) ≠ 0xFF) ∧
      (Kind.progStop.lengthOk (msg [8]).body.length = true ∧ 8 ≤ (8 : Byte).toNat) ∧
      judge .progStop (evalKind .progStop false) (msg [0]) ready = .error .wrongState := by
  refine ⟨by decide +kernel, by decide +kernel, by decide +kernel, by decide +kernel, ?_, by decide +kernel,
    by decide +kernel, by decide +kernel, by decide +kernel, by decide +kernel, rfl⟩
  intro k; cases k <;> decide

theorem test_witness_MessagesNotTaken :
    Instr.message (.ident (msg [])) = some (msg []) ∧ Instr.kindWf (.ident (msg [])) = true ∧ ready.inReset = false ∧
      (rxIn .busy).rx.state = .busy ∧ ready.rx.state ≠ .busy ∧
      Instr.message (.poolQuery { broadcast := true }) = some { broadcast := true } := by decide +kernel

theorem test_witness_CheckFormChangesNothing :
    let m : Msg := { check := true, body := [4] }
    Instr.message (.progStart m) = some m ∧ Instr.kindWf (.progStart m) = true ∧ m.check = true ∧
      backup.inReset = false ∧ backup.rx.state ≠ .busy ∧ m.broadcast = false ∧ backup.unitAddr ≠ 31 ∧
      Instr.message (.progStart { m with broadcast := true }) = some { m with broadcast := true } := by decide +kernel

/-- A command and its check form, and those of a query. -/
theorem test_witness_CheckFormChangesNothing_reply :
    let m : Msg := { body := [4] }
    (Instr.kind (.progStart m) = some .progStart ∧
        Instr.message (.progStart { m with check := true }) = some { m with check := true } ∧
        Instr.message (.progStart { m with check := false }) = some { m with check := false } ∧
        Kind.progStart.isQuery = false) ∧
      (Instr.kind (.progQuery m) = some .progQuery ∧ Kind.progQuery.isQuery = true) ∧ Answers backup m :=
  ⟨by decide, by decide, (commands_of (by decide +kernel)).1⟩

theorem test_witness_QueriesReport :
    Commands backup (msg []) ∧ Commands backup (msg [4]) ∧ Commands backup (msg [1]) ∧ Commands backup (msg [15, 1]) ∧
      Commands backup (msg [136]) ∧ (msg [136]).body = [BitVec.ofNat 8 (136 : EntryId).val] ∧
      (msg [15, 1]).body = [BitVec.ofNat 8 (15 : FeedId).val, BitVec.ofNat 8 true.toNat] ∧
      (msg [7]).body = [BitVec.ofNat 8 (7 : ProgId).val] :=
  ⟨commands_of (by decide +kernel), commands_of (by decide +kernel), commands_of (by decide +kernel),
    commands_of (by decide +kernel), commands_of (by decide +kernel), by decide, by decide, by decide⟩

theorem test_witness_QueryReplyLengths :
    (∃ r, evalIdent [] ready = .ok r) ∧ (∃ r, evalLinkStats [1] ready = .ok r) ∧ (∃ r, evalPoolQuery [] ready = .ok r) ∧
      (∃ r, evalNotices [8] ready = .ok r) ∧ ∃ r, evalAlarmScan [0] ready = .ok r :=
  ⟨⟨_, rfl⟩, ⟨_, rfl⟩, ⟨_, rfl⟩, ⟨_, rfl⟩, ⟨_, rfl⟩⟩

theorem test_witness_NoticesFetchedAndRestartAsked :
    Commands ready (msg [9]) ∧ (msg [9]).body = [9] ∧ Commands ready (msg []) ∧ (msg []).body = [] ∧
      ready.inReset = false ∧ ready.rx.state ≠ .busy ∧ ({ broadcast := true } : Msg).broadcast = true ∧
      ({ broadcast := true } : Msg).check = false :=
  ⟨commands_of (by decide +kernel), rfl, commands_of (by decide +kernel), rfl, by decide +kernel, by decide +kernel, rfl,
    rfl⟩

theorem test_witness_FeedConfigKeepsReception :
    Commands ready (msg [15, 0, 5, 0, 1]) ∧
      (msg [15, 0, 5, 0, 1]).body =
        [BitVec.ofNat 8 (15 : FeedId).val, BitVec.ofNat 8 (ready.feed 15).port.enable.toNat,
          BitVec.ofNat 8 (classCode (some .k96)), BitVec.ofNat 8 false.toNat, BitVec.ofNat 8 true.toNat] :=
  ⟨commands_of (by decide +kernel), by decide +kernel⟩

theorem test_witness_FeedConfigSwitchesPort :
    Commands onStack (msg [0, 1, 0, 1, 1]) ∧ (onStack.feed 0).port.enable = false ∧
      (msg [0, 1, 0, 1, 1]).body =
        [BitVec.ofNat 8 (0 : FeedId).val, 1, BitVec.ofNat 8 (classCode none), BitVec.ofNat 8 true.toNat,
          BitVec.ofNat 8 true.toNat] ∧
      (onStack.feed 12).port.enable = true ∧
      (msg [12, 0, 0, 1, 1]).body =
        [BitVec.ofNat 8 (12 : FeedId).val, 0, BitVec.ofNat 8 (classCode none), BitVec.ofNat 8 true.toNat,
          BitVec.ofNat 8 true.toNat] ∧
      Commands onStack (msg [12, 0, 0, 1, 1]) :=
  ⟨commands_of (by decide +kernel), by decide +kernel, by decide, by decide +kernel, by decide, commands_of (by decide +kernel)⟩

/-- A disabled feed with no FAILOVER entry raised, and with one that still falls; a healthy feed that is disabled, named
by the current set of a running program, and one that is not healthy. -/
theorem test_witness_FeedConfigSwitchesPort_health :
    let fall := onStack.setEntry (feedEntry 0 .feedLost) { config := defaultConfig 0, state := .falling, timer := 4 }
    let sick := onStack.setFeed 12 { lockedFeed .k88 with healthy := false }
    (takes onStack (msg [0, 1, 0, 1, 1]) = true ∧ (onStack.feed 0).healthy = false ∧
        ∀ k, ¬HoldsUnhealthy (onStack.entry (feedEntry 0 k))) ∧
      (takes fall (msg [0, 1, 0, 1, 1]) = true ∧ (fall.feed 0).port.enable = false ∧ (fall.feed 0).healthy = false ∧
        (fall.entry (feedEntry 0 .feedLost)).config.action = .failover ∧
        (fall.entry (feedEntry 0 .feedLost)).state = .falling) ∧
      (takes onStack (msg [12, 0, 0, 1, 1]) = true ∧ (onStack.feed 12).port.enable = true ∧
        (onStack.feed 12).healthy = true ∧ (onStack.prog 4).state = .running ∧
        Names (onStack.prog 4).currentSet 12 ∧ onStack.progCond 4 .noSource = false) ∧
      (sick.feed 12).port.enable = true ∧ (sick.feed 12).healthy = false := by
  unfold HoldsUnhealthy Names
  refine ⟨⟨by decide +kernel, by decide +kernel, fun k => ?_⟩, by decide +kernel, by decide +kernel, by decide +kernel⟩
  cases k <;> decide +kernel

/-- Edge 62 is the last that only counts, and 63 the one that yields. -/
theorem test_witness_FrameEdgeOpensFrame_SpanYielded :
    let s (n : Nat) := receiving fun q => { q with edgeCount := n }
    ((s 62).inReset = false ∧ ((s 62).feed 6).port.enable = true ∧ (s 62).feedCond 6 .feedLost = false ∧
        ((s 62).feed 6).port.frame = .handed ∧ ((s 62).feed 6).port.spanOpen = true ∧ ((s 62).feed 6).port.edgeCount < 63) ∧
      ((s 63).inReset = false ∧ ((s 63).feed 6).port.enable = true ∧ ((s 63).feed 6).port.frame = .handed ∧
        ((s 63).feed 6).port.spanOpen = true ∧ ((s 63).feed 6).port.edgeCount = 63) := by decide +kernel

/-- No span open; a frame cut short before its A sample and after it; and a lost feed. -/
theorem test_witness_FrameEdge_cut_and_lost :
    let s (fr : FrameProgress) (n : Nat) := receiving fun q => { q with frame := fr, edgeCount := n }
    let closed := receiving fun q => { q with spanOpen := false }
    let lost := (receiving fun q => { q with spanOpen := false, frame := .none }).setCondBit (feedEntry 6 .feedLost) true
    (closed.inReset = false ∧ (closed.feed 6).port.enable = true ∧ closed.feedCond 6 .feedLost = false ∧
        (closed.feed 6).port.spanOpen = false) ∧
      (((s .opened 62).feed 6).port.frame = .opened ∧ ((s .opened 62).feed 6).port.spanOpen = true ∧
        ((s .opened 62).feed 6).port.edgeCount < 63) ∧
      ((s (.gotA 5) 63).feed 6).port.frame = .gotA 5 ∧ ((s (.gotA 5) 63).feed 6).port.edgeCount = 63 ∧
      (lost.inReset = false ∧ (lost.feed 6).port.enable = true ∧ lost.feedCond 6 .feedLost = true ∧
        (lost.feed 6).port.frame = .none ∧ (lost.feed 6).port.spanOpen = false ∧ (lost.feed 6).conv.cls = none) := by
  decide +kernel

theorem test_witness_StepIsRoundedRatio : 16221 ≤ 49643 ∧ 49643 ≤ 49643 ∧ 16221 ≤ 16221 := by decide

/-- The lock limits 128 and 1,024 on both their sides, the run's last span but one, and a class set. -/
theorem test_witness_SpanMovesRatioAndStep :
    let c : Converter := { state := .track, cls := some .k48, ratio := 1048448, lockRun := 7 }
    let l : Converter := { state := .locked, cls := some .k48, ratio := 1047552, unlockRun := 1 }
    16221 ≤ 32768 ∧ 32768 ≤ 49643 ∧ c.state = .track ∧ l.state = .locked ∧ c.cls = some .k48 ∧ 692137 ≤ c.ratio ∧
      c.fifo.length ≤ 32 ∧
      ((stepOf 32768 : Int) - c.ratio).natAbs = 128 ∧ ((stepOf 32768 : Int) - (c.ratio - 1 : Nat)).natAbs = 129 ∧
      ((stepOf 32768 : Int) - l.ratio).natAbs = 1024 ∧ ((stepOf 32768 : Int) - (l.ratio - 1 : Nat)).natAbs = 1025 ∧
      c.state ≠ .idle ∧ c.cls ≠ some .k44 ∧ ({ state := .search } : Converter).state = .search := by decide +kernel

theorem test_witness_ConcealmentOfChannel :
    let c : Channel := { badRun := 3 }
    let d : Channel := { badRun := 4 }
    let e : Channel := { badRun := 5, muted := true }
    c.muted = false ∧ c.badRun ≤ 3 ∧ d.muted = false ∧ 4 ≤ d.badRun ∧ e.muted = true ∧ e.goodRun = 0 ∧
      (List.replicate 63 (1 : Sample)).length = 63 := by decide +kernel

theorem test_witness_SubframesMakeFrame :
    let s (fr : FrameProgress) := receiving fun q => { q with frame := fr }
    (s .opened).inReset = false ∧ ((s .opened).feed 6).port.enable = true ∧ ((s .opened).feed 6).port.frame = .opened ∧
      ((s (.gotA 5)).feed 6).port.frame = .gotA 5 ∧ ((s .handed).feed 6).port.frame = .handed ∧
      (ready.feed 6).port.enable = false := by decide +kernel

/-- A FIFO at 31 and at 32; a phase that consumes no frame, the two held, and the two of which one is held. -/
theorem test_witness_SubframesMakeFrame_fifo :
    let c (n step : Nat) : Converter := { state := .track, fifo := List.replicate n {}, stepUsed := step }
    (c 31 0).state = .track ∧ (c 31 0).fifo.length < 32 ∧ (c 32 0).fifo.length = 32 ∧
      (c 0 0).refillWait = false ∧ ((c 0 1).phase + (c 0 1).stepUsed) / 2 ^ 20 = 0 ∧
      (1 ≤ ((c 2 2097152).phase + (c 2 2097152).stepUsed) / 2 ^ 20 ∧
        ((c 2 2097152).phase + (c 2 2097152).stepUsed) / 2 ^ 20 ≤ (c 2 2097152).fifo.length) ∧
      (c 1 2097152).fifo.length < ((c 1 2097152).phase + (c 1 2097152).stepUsed) / 2 ^ 20 ∧
      ({ state := .search } : Converter).state = .search ∧
      ({ state := .locked, refillWait := true } : Converter).refillWait = true := by decide +kernel

/-- The timer at its timeout, with the converter in SEARCH and in LOCKED. -/
theorem test_witness_FeedLossDeclared :
    let s (c : ConvState) := (receiving fun q => { q with lossTimer := some 3072 }).setFeed 6
      { (receiving fun q => { q with lossTimer := some 3072 }).feed 6 with conv := { state := c } }
    (s .search).inReset = false ∧ ((s .search).feed 6).port.enable = true ∧ (s .search).feedCond 6 .feedLost = false ∧
      ((s .search).feed 6).port.lossTimer = some 3072 ∧ ((s .search).feed 6).port.lossTimeout ≤ 3072 ∧
      ((s .search).feed 6).conv.state = .search ∧ ((s .locked).feed 6).conv.state = .locked := by decide +kernel

/-- A class held by the feed that is lost or disabled, and by a feed that a running program names whose class a span
changes, takes away and keeps. -/
theorem test_witness_ClassChanges :
    let s (n : Nat) := surround.onPort 4 fun q =>
      { q with spanOpen := true, edgeCount := 63, spanCounter := n, frame := .none, lossTimer := some 4000 }
    let cls (n : Nat) := ((after (exec (.frameEdge 4 false) (s n))).feed 4).conv.cls
    (s 34000).inReset = false ∧ ((s 34000).feed 4).port.enable = true ∧ (s 34000).feedCond 4 .feedLost = false ∧
      ((s 34000).feed 4).conv.state = .locked ∧ ((s 34000).feed 4).conv.cls = some .k44 ∧
      ((s 34000).feed 4).port.lossTimeout ≤ 4000 ∧ ((s 34000).prog 0).active = true ∧
      Names ((s 34000).prog 0).currentSet 4 ∧ ¬Names ((s 34000).prog 1).currentSet 4 ∧
      (cls 34000, cls 32768, cls 35665) = (none, some .k48, some .k44) := by unfold Names; decide +kernel

/-- A healthy feed at its loss: the FEED_LOST entry as by default, with a raise delay, and with action NONE. -/
theorem test_witness_FeedLossDeclared_health :
    let s (d : Nat) (a : Action) := (surround.onPort 4 fun q => { q with lossTimer := some 3072 }).setEntry
      (feedEntry 4 .feedLost) { config := ⟨.major, d, 10, a⟩ }
    (∀ k, ∀ a ∈ [Action.none, .failover], ∀ d ∈ [0, 1], ¬HoldsUnhealthy ((s d a).entry (feedEntry 4 k))) ∧
      (∀ a ∈ [Action.none, .failover], ∀ d ∈ [0, 1], (s d a).inReset = false ∧ ((s d a).feed 4).port.enable = true ∧
        (s d a).feedCond 4 .feedLost = false ∧ ((s d a).feed 4).port.lossTimer = some 3072 ∧
        ((s d a).feed 4).port.lossTimeout ≤ 3072 ∧ ((s d a).feed 4).healthy = true ∧
        ((s d a).entry (feedEntry 4 .feedLost)).state = .clear ∧
        ((s d a).entry (feedEntry 4 .feedLost)).config.raiseDelay = d ∧
        ((s d a).entry (feedEntry 4 .feedLost)).config.action = a) ∧ defaultConfig 20 = ⟨.major, 0, 10, .failover⟩ := by
  unfold HoldsUnhealthy
  refine ⟨fun k => ?_, by decide +kernel, by decide +kernel⟩
  cases k <;> decide +kernel

theorem test_witness_HouseReference :
    ready.inReset = false ∧ ({ ready with monitor := { timer := some 2048 } } : State).monitor.lost = false ∧
      ({ ready with monitor := { timer := some 2048 } } : State).monitor.timer = some 2048 ∧ 2048 ≤ 2048 := by
  decide +kernel

/-- c of 0 and of 255 are clamped; a DEFINED and an UNDEFINED program take it. -/
theorem test_witness_ProgDefineStartsAgain :
    Commands backup (msg [4, 255, 1, 1, 1, 1, 1, 1, 1, 1]) ∧ (List.replicate 8 WeightCode.unity).length = 8 ∧
      (backup.prog 4).state = .defined ∧ (backup.prog 0).state = .undefined ∧
      (msg [4, 255, 1, 1, 1, 1, 1, 1, 1, 1]).body =
        [BitVec.ofNat 8 (4 : ProgId).val, 255] ++ (List.replicate 8 WeightCode.unity).flatMap (fun w => byte1 w.code) :=
  ⟨commands_of (by decide +kernel), by decide, by decide +kernel, by decide +kernel, by decide⟩

/-- Program 4 in a state. -/
def inState (st : ProgState) : State := onRank1.onProg 4 fun g => { g with state := st }

/-- PROG_DEFINE of a program that runs and of one that stops, and PROG_STOP at level 0 and above it. -/
theorem test_witness_ProgDefine_ProgStop :
    let z := onRank1.onProg 4 fun g => { g with outLevel := 0 }
    Commands onRank1 (msg [4, 255, 1, 1, 1, 1, 1, 1, 1, 1]) ∧
      Commands (inState .stopping) (msg [4, 255, 1, 1, 1, 1, 1, 1, 1, 1]) ∧ Commands z (msg [4]) ∧
      (z.prog 4).state = .running ∧ (z.prog 4).outLevel = 0 ∧ (onRank1.prog 4).outLevel ≠ 0 :=
  ⟨commands_of (by decide +kernel), commands_of (by decide +kernel), commands_of (by decide +kernel), by decide +kernel,
    by decide +kernel, by decide +kernel⟩

/-- The four program states that the clauses on program messages name. -/
theorem test_witness_ProgramStates :
    Commands backup (msg [4]) ∧ Commands (inState .stopping) (msg [4]) ∧ Commands onRank1 (msg [4]) ∧
      (msg [4]).body = [BitVec.ofNat 8 (4 : ProgId).val] ∧ (backup.prog 4).state = .defined ∧
      (ready.prog 4).state = .undefined ∧ (onRank1.prog 4).state = .running ∧
      ((inState .stopping).prog 4).state = .stopping ∧ ((backup.prog 4).setAt 0).isSome = true ∧
      1 ≤ (backup.prog 4).delay.reserve ∧
      ((with4 fun g => { g with delay := {} }).prog 4).delay.reserve = 0 ∧ Commands ready (msg [4]) :=
  ⟨commands_of (by decide +kernel), commands_of (by decide +kernel), commands_of (by decide +kernel), by decide,
    by decide +kernel, by decide +kernel, by decide +kernel, by decide +kernel, by decide +kernel, by decide +kernel,
    by decide +kernel, commands_of (by decide +kernel)⟩

/-- The states in which PROG_STOP, PROG_RESTART, DELAY_RESERVE and DELAY_TARGET are refused or change nothing. -/
theorem test_witness_refused_states :
    takes ready (msg [4]) = true ∧ (ready.prog 4).state = .undefined ∧ takes backup (msg [4]) = true ∧
      (backup.prog 4).state ≠ .running ∧ takes (inState .stopping) (msg [4]) = true ∧
      takes onRank1 (msg [4, 2]) = true ∧ (onRank1.prog 4).state ≠ .defined ∧
      takes ready (msg [0, 0, 0, 0x14, 0x50, 1, 0xE0, 2]) = true ∧ (ready.prog 0).state = .undefined := by decide +kernel

/-- A list of c entries, one of another length, and ranks that are refused. -/
theorem test_witness_SetDefineTakenOrRefused :
    Commands backup (msg [4, 2, 12, 0, 12, 1]) ∧ [src 12 .a, src 12 .b].Nodup ∧ [src 12 .a, src 12 .b].length ≤ 8 ∧
      (msg [4, 2, 12, 0, 12, 1]).body =
        [BitVec.ofNat 8 (4 : ProgId).val, BitVec.ofNat 8 (2 : Rank).val] ++
          [src 12 .a, src 12 .b].flatMap SlotSource.bytes ∧
      (backup.prog 4).state = .defined ∧ (ready.prog 4).state = .undefined ∧
      ((onRank1.prog 4).active = true ∧ (1 : Rank) ∈ (onRank1.prog 4).stack) :=
  ⟨commands_of (by decide +kernel), by decide, by decide, by decide, by decide +kernel, by decide +kernel,
    by decide +kernel⟩

/-- Ranks 2 and 0 off the stack of a program that runs or stops, and rank 0 where an empty list would clear it. -/
theorem test_witness_SetDefine_off_stack :
    let s := inState .stopping
    Commands onRank1 (msg [4, 2, 12, 0, 12, 1]) ∧ Commands s (msg [4, 2, 12, 0, 12, 1]) ∧ Commands onRank1 (msg [4, 0]) ∧
      (msg [4, 0]).body =
        [BitVec.ofNat 8 (4 : ProgId).val, BitVec.ofNat 8 (0 : Rank).val] ++ ([] : List SlotSource).flatMap SlotSource.bytes ∧
      ((onRank1.prog 4).active = true ∧ (2 : Rank) ∉ (onRank1.prog 4).stack ∧ (0 : Rank) ∉ (onRank1.prog 4).stack) ∧
      ((s.prog 4).active = true ∧ (2 : Rank) ∉ (s.prog 4).stack) ∧
      [src 12 .a, src 12 .b].length = (onRank1.prog 4).slots ∧
      ((onRank1.prog 4).state = .running ∧ ([] : List SlotSource).length ≠ (onRank1.prog 4).slots) :=
  ⟨commands_of (by decide +kernel), commands_of (by decide +kernel), commands_of (by decide +kernel), by decide,
    by decide +kernel, by decide +kernel, by decide +kernel, by decide +kernel⟩

theorem test_witness_OutputFadesEnd :
    let s := onRank1.onProg 4 fun g => { g with outDir := .fadeIn }
    let u := (inState .stopping).onProg 4 fun g => { g with outLevel := 0 }
    s.inReset = false ∧ (s.prog 4).outDir = .fadeIn ∧ (s.prog 4).outLevel = 480 ∧ u.inReset = false ∧
      (u.prog 4).state = .stopping ∧ (u.prog 4).outLevel = 0 := by decide +kernel

/-- A program that runs under each fade, and one that does not. -/
theorem test_witness_OutputSampleMovesPrograms :
    onRank1.inReset = false ∧ (onRank1.prog 0).active = false ∧ (onRank1.prog 4).active = true ∧
      (onRank1.prog 4).delay.writePos < (onRank1.prog 4).delay.reserve * 1024 ∧
      ((cutting .cutOut 0 5).prog 4).delay.op = .cutOut ∧ (onRank1.prog 4).delay.op = .none ∧
      (onRank1.prog 4).slots ≤ 2 := by decide +kernel

/-- The entry law holds of a running part; both fades of a swap, CUT_IN, a SLEW, and a ramp of no and of one sample. -/
theorem test_witness_OutputSample_fades :
    let w (ph : SwapPhase) (n : Nat) := onRank1.onProg 4 fun g =>
      { g with swap := { phase := ph, level := n, cause := some .failover }, loud := { g.loud with rampLeft := n } }
    EntryLaw (w .fadeOut 0) ∧ EntryLaw (w .fadeIn 480) ∧ ((w .fadeOut 1).prog 4).swap.phase = .fadeOut ∧
      ((w .fadeIn 479).prog 4).swap.phase = .fadeIn ∧ ((w .fadeOut 0).prog 4).loud.rampLeft = 0 ∧
      ((w .fadeOut 1).prog 4).loud.rampLeft ≠ 0 ∧ ((cutting .cutIn 479 1000).prog 4).delay.op = .cutIn ∧
      (slewing.prog 0).delay.op = .slew ∧ (slewing.prog 0).active = true := by
  unfold EntryLaw; decide +kernel

theorem test_witness_SourceSelectTakenOrRefused :
    let s := onRank1.onProg 4 fun g => { g with swap := { g.swap with phase := .fadeOut } }
    Commands onRank1 (msg [4, 0]) ∧ (msg [4, 0]).body = [BitVec.ofNat 8 (4 : ProgId).val, BitVec.ofNat 8 (0 : Rank).val] ∧
      (onRank1.prog 4).state = .running ∧ ((onRank1.prog 4).setAt 0).isSome = true ∧
      ((onRank1.prog 4).setAt 1).isSome = true ∧ (onRank1.prog 4).swap.phase = .none ∧
      (onRank1.prog 4).currentRank ≠ some 0 ∧ (onRank1.prog 4).currentRank = some 1 ∧
      (onRank1.prog 4).setAt 3 = none ∧ (backup.prog 4).state ≠ .running ∧ (s.prog 4).swap.phase ≠ .none ∧
      Commands onRank1 (msg [4, 1]) ∧ Commands s (msg [4, 0]) :=
  ⟨commands_of (by decide +kernel), by decide, by decide +kernel, by decide +kernel, by decide +kernel, by decide +kernel,
    by decide +kernel, by decide +kernel, by decide +kernel, by decide +kernel, by decide +kernel,
    commands_of (by decide +kernel), commands_of (by decide +kernel)⟩

/-- The hold at the ends of its range. -/
theorem test_witness_FailoverConfigStores :
    Commands backup (msg [4, 1, 0x17, 0x70, 0]) ∧ 6000 < 65536 ∧
      (msg [4, 1, 0x17, 0x70, 0]).body =
        [BitVec.ofNat 8 (4 : ProgId).val, BitVec.ofNat 8 true.toNat] ++ byte2 6000 ++ [BitVec.ofNat 8 false.toNat] ∧
      (backup.prog 4).state ≠ .undefined ∧ (backup.prog 0).state = .undefined :=
  ⟨commands_of (by decide +kernel), by decide, by decide, by decide +kernel, by decide +kernel⟩

/-- Every cause at its SWITCH: the current set eligible, none eligible, a rank pushed, a rank on the stack. -/
theorem test_witness_SwitchChoosesSet :
    let s := atFoot .failover onRank1
    let none8 := atFoot .silence (onRank1.setFeed 12 {})
    let push := atFoot .failover (onRank1.onProg 4 fun g => { g with stack := [0] })
    let cut := atFoot .failover (onRank1.onProg 4 fun g => { g with stack := [1, 0] })
    let ret := atFoot .return onStack
    let sel := atFoot .select onStack
    (s.inReset = false ∧ (s.prog 4).state = .running ∧ (s.prog 4).swap.phase = .fadeOut ∧ (s.prog 4).swap.level = 0 ∧
        (s.prog 4).swap.cause = some .failover ∧ currentEligible s (s.prog 4) = true) ∧
      (∀ r, eligible none8 (none8.prog 4) r = false) ∧
      (currentEligible push (push.prog 4) = false ∧ eligible push (push.prog 4) 1 = true ∧
        (∀ r' < (1 : Rank), eligible push (push.prog 4) r' = false) ∧ (1 : Rank) ∉ (push.prog 4).stack) ∧
      (currentEligible cut (cut.prog 4) = false ∧ (1 : Rank) ∈ (cut.prog 4).stack) ∧
      ((ret.prog 4).swap.cause = some .return ∧ (ret.prog 4).stack.dropLast.getLast? = some 0 ∧
        eligible ret (ret.prog 4) 0 = true) ∧
      ((sel.prog 4).swap.cause = some .select ∧ (sel.prog 4).swap.selected = some 1 ∧
        rankHealthy sel (sel.prog 4) 1 = true) := by decide +kernel

/-- A return whose return set is not eligible, with the current set eligible and with rank 2 alone eligible; a select
whose set is not healthy, with rank 0 eligible; and a state where NO_SOURCE stands by its law. -/
theorem test_witness_SwitchChoosesSet_fallsBack :
    let keep := atFoot .return (onStack.setFeed 8 {})
    let push := atFoot .return ((((onStack.setFeed 8 {}).setFeed 12 {}).setFeed 3 (lockedFeed .k48)).onProg 4 fun g =>
      { g with sets := g.sets.set 2 (some [src 3 .a, src 3 .b]) })
    let sel := atFoot .select (onStack.setFeed 12 {})
    let law := atFoot .failover (onRank1.setCondBit (progEntry 4 .onBackup) true)
    (keep.inReset = false ∧ (keep.prog 4).state = .running ∧ (keep.prog 4).swap.phase = .fadeOut ∧
        (keep.prog 4).swap.level = 0 ∧ (keep.prog 4).swap.cause = some .return ∧
        returnEligible keep (keep.prog 4) = false ∧ currentEligible keep (keep.prog 4) = true) ∧
      (returnEligible push (push.prog 4) = false ∧ currentEligible push (push.prog 4) = false ∧
        eligible push (push.prog 4) 2 = true ∧ (∀ r' < (2 : Rank), eligible push (push.prog 4) r' = false) ∧
        (2 : Rank) ∉ (push.prog 4).stack) ∧
      ((sel.prog 4).swap.cause = some .select ∧ (sel.prog 4).swap.selected = some 1 ∧
        rankHealthy sel (sel.prog 4) 1 = false ∧ currentEligible sel (sel.prog 4) = false ∧
        eligible sel (sel.prog 4) 0 = true ∧ (0 : Rank) ∈ (sel.prog 4).stack) ∧
      SourceLaw law ∧ currentEligible law (law.prog 4) = true := by unfold SourceLaw; decide +kernel

/-- The end of a swap one block below the hold and at it, and a return with no swap in flight. -/
theorem test_witness_SwapEndAndReturn :
    let s (n : Nat) := onStack.onProg 4 fun g =>
      { g with returnTimer := n, returnFell := true, swap := { phase := .fadeIn, cause := some .failover } }
    (s 299).inReset = false ∧ ((s 299).prog 4).state = .running ∧ ((s 299).prog 4).swap.phase = .fadeIn ∧
      ((s 299).prog 4).swap.level = 480 ∧ ((s 299).prog 4).returnTimer < ((s 299).prog 4).returnHold ∧
      ((s 300).prog 4).returnHold ≤ ((s 300).prog 4).returnTimer ∧ ((s 300).prog 4).autoReturn = true ∧
      2 ≤ ((s 300).prog 4).stack.length ∧ (onStack.prog 4).swap.phase = .none ∧
      ((onStack.onProg 4 fun g => { g with returnFell := true }).prog 4).returnFell = true := by decide +kernel

/-- A close one block below the hold and at it, with a swap in flight, with rank 0 not eligible, and in both orders. -/
theorem test_witness_SwapEndAndReturn_close :
    let s (n : Nat) := onStack.onProg 4 fun g => { g with returnTimer := n }
    let u := (s 298).onProg 4 fun g => { g with swap := { phase := .fadeIn } }
    let b := (s 299).setFeed 8 {}
    (s 298).inReset = false ∧ NoHandover (s 298) ∧ NoHandover (s 299) ∧ NoHandover b ∧ ((s 298).prog 4).state = .running ∧
      ((s 298).prog 4).autoReturn = true ∧ 2 ≤ ((s 298).prog 4).stack.length ∧
      returnEligible (s 299) ((s 299).prog 4) = true ∧ returnEligible b (b.prog 4) = false ∧
      min (((s 298).prog 4).returnTimer + 1) 6000 < ((s 298).prog 4).returnHold ∧
      ((s 299).prog 4).returnHold ≤ min (((s 299).prog 4).returnTimer + 1) 6000 ∧ ((s 299).prog 4).swap.phase = .none ∧
      (u.prog 4).swap.phase ≠ .none ∧ ({ returnsApart := true } : CloseOrder).returnsApart = true ∧
      ({} : CloseOrder).returnsApart = false := by
  unfold NoHandover HandsNothing; decide +kernel

/-- A measured block below the silence threshold with one block and two to go, one above it, one with no silence time,
and one with a swap in flight. -/
theorem test_witness_SilenceTimeoutActs_close :
    let two := nearSilence.onProg 4 fun g => { g with loud := { g.loud with silenceTimer := 2 } }
    let off := nearSilence.onProg 4 fun g => { g with loud := { g.loud with pending := { silenceTime := 0 } } }
    let swap := nearSilence.onProg 4 fun g => { g with swap := { phase := .fadeIn } }
    nearSilence.inReset = false ∧ Measured (nearSilence.prog 4) ∧ (nearSilence.prog 4).swap.phase = .none ∧
      (nearSilence.prog 4).loud.pending.silenceTime ≠ 0 ∧ (nearSilence.prog 4).loud.silenceTimer ≤ 1 ∧
      2 ≤ (two.prog 4).loud.silenceTimer ∧
      mean (lastN 4 ((nearSilence.prog 4).loud.history ++
        [blockLevel (blockPower (nearSilence.prog 4).weights (nearSilence.prog 4).loud.accumulators)])) <
        (nearSilence.prog 4).loud.pending.silenceThreshold ∧
      (onRank1.prog 4).loud.pending.silenceThreshold ≤ mean (lastN 4 [blockLevel 2]) ∧
      (off.prog 4).loud.pending.silenceTime = 0 ∧ (swap.prog 4).swap.phase ≠ .none ∧
      LoudnessFirst {} ∧ LoudnessFirst { first := [.measure 4] } := by
  unfold Measured LoudnessFirst; decide +kernel

theorem test_witness_SilenceTimeoutActs :
    let n := (silent.setCondBit (progEntry 4 .noSource) true).setFeed 12 {}
    silent.inReset = false ∧ (silent.prog 4).active = true ∧ (silent.prog 4).loud.silenceTimer = 0 ∧
      (silent.prog 4).loud.active.silenceTime ≠ 0 ∧ silent.progCond 4 .silence = false ∧
      (onRank1.entry (progEntry 4 .silence)).config.action = .none ∧
      (silent.entry (progEntry 4 .silence)).config.action = .failover ∧
      (silent.entry (progEntry 4 .silence)).config.raiseDelay = 0 ∧
      (silent.entry (progEntry 4 .silence)).state = .clear ∧ (silent.prog 4).state = .running ∧
      (silent.prog 4).swap.phase = .none ∧ (silent.prog 4).currentRank = some 1 ∧ silent.progCond 4 .noSource = false ∧
      n.progCond 4 .noSource = true ∧ ∀ r', eligible n (n.prog 4) r' = false := by decide +kernel

/-- Eleven settings below their ranges and eleven above them, and a restart. -/
theorem test_witness_LoudConfigAndRestart :
    let m : Msg :=
      { body := [4, 0] ++ (List.replicate 11 (0x8000 : BitVec 16)).flatMap (fun v => byte2 v.toNat) ++ [4] }
    Commands backup m ∧ (List.replicate 11 (0x8000 : BitVec 16)).length = 11 ∧ (4 : Nat) ≤ 4 ∧
      m.body = [BitVec.ofNat 8 (4 : ProgId).val, BitVec.ofNat 8 LoudMode.correct.code] ++
        (List.replicate 11 (0x8000 : BitVec 16)).flatMap (fun v => byte2 v.toNat) ++ [BitVec.ofNat 8 4] ∧
      (backup.prog 4).state ≠ .undefined ∧ (ready.prog 4).state = .undefined ∧ Commands backup (msg [4]) :=
  ⟨commands_of (by decide +kernel), by decide, by decide, by decide, by decide +kernel, by decide +kernel,
    commands_of (by decide +kernel)⟩

theorem test_witness_GainMovesOneSlewStep :
    let a : LoudSettings := {}
    let l : Loudness := { window := [30] }
    0 ≤ a.rise ∧ 0 ≤ a.fall ∧ (0 : Int) < 4 ∧ (-120 : Int) ≤ 0 ∧ (4 : Int) ≤ 120 ∧ l.active.mode = .correct ∧
      l.window ≠ [] ∧ min l.active.holdOff l.active.window ≤ l.window.length ∧ ([] : List Int).length < min 10 100 := by
  decide

set_option maxRecDepth 3000 in
/-- A close of a program that becomes a member of group 1, one that is no member, and one that is not measured. -/
theorem test_witness_GainMovesOneSlewStep_close :
    let s := onRank1.onProg 4 fun g => { g with loud := { g.loud with pending := { link := 1 } } }
    let t := after (exec (.blockClose {}) s)
    s.inReset = false ∧ Measured (s.prog 4) ∧ ¬Measured (s.prog 0) ∧ isMember (t.prog 4) (t.prog 4).loud.active.link = true ∧
      isMember (t.prog 0) (t.prog 0).loud.active.link = false ∧ (s.prog 4).active = true := by
  unfold Measured; decide +kernel

theorem test_witness_BlockLevelAndMeanRound :
    (0 : Rat) < 1 ∧ -900 < blockLevel 1 ∧ blockLevel 1 < 120 ∧ (0 : Rat) ≤ 0 ∧ ([-179, -180] : List Int) ≠ [] := by
  decide +kernel

/-- A program that is measured, one whose block is incomplete, and one that does not run. -/
theorem test_witness_BlockCloseMeasures :
    let s := onRank1.onProg 4 fun g => { g with loud := { g.loud with incomplete := true } }
    onRank1.inReset = false ∧ (onRank1.prog 4).active = true ∧ (onRank1.prog 4).loud.incomplete = false ∧
      (s.prog 4).loud.incomplete = true ∧ (onRank1.prog 0).active = false := by decide +kernel

/-- A block that passes the four gates, at a close whose loudness work comes first. -/
theorem test_witness_BlockCloseMeasures_admits :
    let s := onRank1.onProg 4 fun g => { g with loud := { g.loud with accumulators := [4800, 4800] } }
    let b := blockLevel (blockPower (s.prog 4).weights (s.prog 4).loud.accumulators)
    Measured (s.prog 4) ∧ LoudnessFirst {} ∧ (s.prog 4).swap.phase = .none ∧
      -700 ≤ mean (lastN 4 ((s.prog 4).loud.history ++ [b])) ∧
      lastN (s.prog 4).loud.pending.window (s.prog 4).loud.window = [] ∧ (s.prog 4).loud.pending.mode ≠ .bypass := by
  unfold Measured LoudnessFirst; decide +kernel

theorem test_witness_LimiterHoldsCeiling :
    (-400 : Rat) ≤ -400 ∧ (-400 : Rat) ≤ 400 ∧ (400 : Rat) ≤ 400 ∧
    let l : Loudness := {}
    let b : Loudness := { active := { mode := .bypass }, lookahead := List.replicate 48 [] }
    l.active.mode ≠ .bypass ∧ 0 < l.limiterGain ∧ l.limiterGain ≤ 1 ∧ b.active.mode = .bypass ∧ b.lookahead.length = 48 := by
  decide +kernel

/-- A requirement above 94 pages a slot, one that fits, and one above the room. -/
theorem test_witness_DelayReserveRebuildsChain :
    let s : State := { backup with freePages := [] }
    Commands backup (msg [4, 95]) ∧ (msg [4, 95]).body = [BitVec.ofNat 8 (4 : ProgId).val, 95] ∧
      (backup.prog 4).state = .defined ∧
      (backup.prog 4).slots * min (95 : Byte).toNat 94 ≤ (backup.freePages ++ (backup.prog 4).delay.chain).length ∧
      (s.freePages ++ (s.prog 4).delay.chain).length < (s.prog 4).slots * min (3 : Byte).toNat 94 ∧
      Commands s (msg [4, 3]) :=
  ⟨commands_of (by decide +kernel), by decide, by decide +kernel, by decide +kernel, by decide +kernel,
    commands_of (by decide +kernel)⟩

theorem test_witness_DelayTargetStores :
    Commands surround (msg [0, 0, 0, 0x14, 0x50, 1, 0xE0, 2]) ∧ 5200 < 2 ^ 32 ∧ 480 < 2 ^ 16 ∧
      (msg [0, 0, 0, 0x14, 0x50, 1, 0xE0, 2]).body =
        [BitVec.ofNat 8 (0 : ProgId).val] ++ byte4 5200 ++ byte2 480 ++ [BitVec.ofNat 8 StepInterval.n256.code] ∧
      (surround.prog 0).active = true ∧ (backup.prog 4).state = .defined :=
  ⟨commands_of (by decide +kernel), by decide, by decide, by decide, by decide +kernel, by decide +kernel⟩

/-- The re-targets of R122 and R124: each operation in flight, on a program that runs and on one that stops. -/
theorem test_witness_DelayTargetStores_retargets :
    let s (st : ProgState) (op : DelayOp) :=
      surround.onProg 0 fun g => { g with state := st, delay := { g.delay with op := op } }
    (∀ op ∈ [DelayOp.none, .slew, .cutOut, .cutIn], takes (s .running op) (msg [0, 0, 0, 0x14, 0x50, 1, 0xE0, 2]) = true ∧
        ((s .running op).prog 0).active = true ∧ ((s .running op).prog 0).delay.op = op) ∧
      ((s .stopping .none).prog 0).active = true ∧
      delayTargetOf surround { surround.prog 0 with delay := { (surround.prog 0).delay with ltgt := 5200 } } = 5100 ∧
      (surround.prog 0).delay.dtgt = 4715 := by decide +kernel

/-- A step to its target and one short of it, the foot of a CUT, and its top on both sides of the slew limit. -/
theorem test_witness_DelayOperationEvents :
    let last := slewing.onProg 0 fun g => { g with delay := { g.delay with dcur := 5099 } }
    slewing.inReset = false ∧ (slewing.prog 0).delay.op = .slew ∧
      (slewing.prog 0).delay.stepInterval.samples ≤ (slewing.prog 0).delay.progress ∧ 1 ≤ (slewing.prog 0).delay.dcur ∧
      (slewing.prog 0).delay.dcur + 1 ≠ (slewing.prog 0).delay.dtgt ∧
      (last.prog 0).delay.dcur + 1 = (last.prog 0).delay.dtgt ∧
      (((cutting .cutOut 0 5).prog 4).delay.op = .cutOut ∧ ((cutting .cutOut 0 5).prog 4).outLevel = 0) ∧
      (((cutting .cutIn 480 1000).prog 4).delay.op = .cutIn ∧ ((cutting .cutIn 480 1000).prog 4).outLevel = 480 ∧
        ((cutting .cutIn 480 1000).prog 4).delay.dcur = ((cutting .cutIn 480 1000).prog 4).delay.dtgt) ∧
      ((((cutting .cutIn 480 520).prog 4).delay.dtgt : Int) - ((cutting .cutIn 480 520).prog 4).delay.dcur).natAbs ≤
        ((cutting .cutIn 480 520).prog 4).delay.slewLimit ∧
      ((cutting .cutIn 480 519).prog 4).delay.slewLimit <
        ((((cutting .cutIn 480 519).prog 4).delay.dtgt : Int) - ((cutting .cutIn 480 519).prog 4).delay.dcur).natAbs := by
  decide +kernel

/-- A step up from 0, a step down from 1, and a step up from the ring bound. -/
theorem test_witness_DelayOperationEvents_ends :
    let s (n : Nat) (dir : StepDir) := slewing.onProg 0 fun g => { g with delay := { g.delay with dcur := n, dir := dir } }
    ((s 0 .up).prog 0).delay.dir = .up ∧ ((s 0 .up).prog 0).delay.dcur = 0 ∧
      (((s 1 .down).prog 0).delay.dir = .down ∧ 1 ≤ ((s 1 .down).prog 0).delay.dcur) ∧
      (ringBound (s 5100 .up) ((s 5100 .up).prog 0)).toNat = ((s 5100 .up).prog 0).delay.dcur ∧
      ((s 5100 .up).prog 0).delay.op = .slew := by decide +kernel

/-- Two rings of one page each, at the last delay that a ring holds. -/
theorem test_witness_RingDelaysSamples :
    let d : DelayRec := { reserve := 1, chain := [5, 2], writePos := 1023, flushCounter := 1024 }
    Memory.wf [] = true ∧ d.chain.Nodup ∧ d.chain.length = 2 * d.reserve ∧ ([1, 2] : List Rat).length = 2 ∧
      ([3, 4] : List Rat).length = 2 ∧ 1 < 2 ∧ 1 ≤ d.reserve ∧ d.writePos < d.ringSize ∧ d.flushCounter ≤ d.ringSize ∧
      1022 + 1 < d.ringSize := by decide +kernel

theorem test_witness_StoreWrittenOnlyAtWritePositions :
    (∃ t, exec .outputSample onRank1 = .next t) ∧ onRank1.store.wf = true ∧ (onRank1.prog 4).active = true ∧
      (∃ t, exec .houseRefEdge onRank1 = .next t) ∧ Instr.houseRefEdge ≠ .outputSample ∧
      (∀ u b, Instr.houseRefEdge ≠ .powerOnReset u b) ∧
      ∀ p, (onRank1.prog p).active = true → ∀ k < (onRank1.prog p).currentSet.length,
        4096 * 1024 ≠ (onRank1.prog p).delay.address k (onRank1.prog p).delay.writePos :=
  ⟨⟨_, rfl⟩, by decide +kernel, by decide +kernel, ⟨_, rfl⟩, by simp, by simp, by decide +kernel⟩

/-- Delays at the ends of their field, an entry where FAILOVER is legal and one where it is not. -/
theorem test_witness_AlarmConfigStores :
    Commands ready (msg [37, 3, 0xFF, 0xFF, 0, 0, 1]) ∧ 65535 < 65536 ∧
      (msg [37, 3, 0xFF, 0xFF, 0, 0, 1]).body =
        [BitVec.ofNat 8 (37 : EntryId).val, BitVec.ofNat 8 Severity.major.code] ++ byte2 65535 ++ byte2 0 ++
          [BitVec.ofNat 8 Action.failover.code] ∧
      failoverLegal 37 = true ∧ failoverLegal 136 = false ∧ failoverLegal 39 = false ∧
      Commands ready (msg [136, 3, 0xFF, 0xFF, 0, 0, 1]) :=
  ⟨commands_of (by decide +kernel), by decide, by decide, by decide +kernel, by decide +kernel, by decide +kernel,
    commands_of (by decide +kernel)⟩

theorem test_witness_ConfigLeavesRunningTimer :
    let s := ready.setEntry 37 { config := ⟨.minor, 5, 10, .failover⟩, state := .active }
    let t := s.setCondBit 37 true
    (ready.entry 37).state = .clear ∧ (ready.entry 37).config.raiseDelay ≠ 0 ∧ ready.cond 37 = false ∧
      (t.entry 37).state = .active ∧ (t.entry 37).config.clearDelay ≠ 0 ∧ t.cond 37 = true := by decide +kernel

theorem test_witness_AlarmAckAcknowledges :
    Commands ready (msg [136]) ∧ (msg [136]).body = [BitVec.ofNat 8 (136 : EntryId).val] ∧ Commands ready (msg [0xFF]) ∧
      (msg [0xFF]).body = [0xFF] :=
  ⟨commands_of (by decide +kernel), by decide, commands_of (by decide +kernel), by decide⟩

theorem test_witness_AlarmTimersExpire :
    let r := withEntry 37 .rising false false
    let f := withEntry 136 .falling true true
    r.inReset = false ∧ (r.entry 37).timer = 0 ∧ (r.entry 37).state = .rising ∧ (r.entry 37).config.severity ≠ .off ∧
      (f.entry 136).timer = 0 ∧ (f.entry 136).state = .falling ∧ (f.entry 136).config.action = .none := by decide +kernel

/-- Entries of severity OFF and action NONE, and entries with a delay of 0 whose condition changes. -/
theorem test_witness_AlarmTimersExpire_off :
    let s (st : EntryState) := ready.setEntry 37 { config := ⟨.off, 0, 0, .none⟩, state := st }
    let c (st : EntryState) := ready.setEntry 37 { config := ⟨.minor, 0, 0, .none⟩, state := st }
    (∀ st, ((s st).entry 37).state = st ∧ ((s st).entry 37).timer = 0 ∧ ((s st).entry 37).config.severity = .off ∧
        ((s st).entry 37).config.action = .none) ∧
      (((c .clear).entry 37).state = .clear ∧ ((c .clear).entry 37).config.raiseDelay = 0 ∧ (c .clear).cond 37 = false ∧
        ((c .clear).entry 37).config.severity ≠ .off) ∧
      (((c .active).entry 37).state = .active ∧ ((c .active).entry 37).config.clearDelay = 0 ∧
        ((c .active).setCondBit 37 true).cond 37 = true) := by
  refine ⟨fun st => ?_, by decide +kernel, by decide +kernel⟩
  cases st <;> decide +kernel

/-- The raise of a feed entry with action FAILOVER on a healthy feed: a program that runs and names it in each phase,
one that does not run, one whose current set does not name it, one with NO_SOURCE true; and an unhealthy feed. -/
theorem test_witness_AlarmTimersExpire_raise :
    let s := onFeed12 .rising
    let other := (s .none).onProg 4 fun g => { g with stack := [0] }
    let dry := ((s .none).setCondBit (progEntry 4 .noSource) true).onProg 4 fun g =>
      { g with marks := #v[false, true, false, false] }
    let sick := (s .none).setFeed 12 { lockedFeed .k88 with healthy := false }
    (∀ ph ∈ [SwapPhase.none, .fadeOut, .fadeIn], (s ph).inReset = false ∧
        ((s ph).entry (feedEntry 12 .feedLost)).timer = 0 ∧ ((s ph).entry (feedEntry 12 .feedLost)).state = .rising ∧
        ((s ph).entry (feedEntry 12 .feedLost)).config.action = .failover ∧ ((s ph).feed 12).healthy = true ∧
        ((s ph).prog 4).state = .running ∧ Names ((s ph).prog 4).currentSet 12 ∧
        (s ph).progCond 4 .noSource = false ∧ ((s ph).prog 4).swap.phase = ph) ∧
      (SourceLaw (s .none) ∧ ((s .none).prog 0).state ≠ .running) ∧
      (¬Names (other.prog 4).currentSet 12 ∧ (∃ r l, (other.prog 4).setAt r = some l ∧ Names l 12)) ∧
      (SourceLaw dry ∧ dry.progCond 4 .noSource = true ∧ (dry.feed 12).healthy = true) ∧
      (sick.feed 12).healthy = false := by
  have h : ∀ r l, (((onFeed12 .rising .none).onProg 4 fun g => { g with stack := [0] }).prog 4).setAt r = some l →
      Names l 12 → ∃ r l, (((onFeed12 .rising .none).onProg 4 fun g => { g with stack := [0] }).prog 4).setAt r = some l ∧
        Names l 12 := fun r l h1 h2 => ⟨r, l, h1, h2⟩
  unfold Names SourceLaw at *
  refine ⟨by decide +kernel, by decide +kernel, ⟨by decide +kernel, h 1 [src 12 .a, src 12 .b] ?_ ?_⟩, by decide +kernel,
    by decide +kernel⟩ <;> decide +kernel

/-- The release of the one FAILOVER entry of an enabled, unhealthy feed, with a current set that is not eligible and
NO_SOURCE true. -/
theorem test_witness_AlarmTimersExpire_release :
    let s := (((onFeed12 .falling .none).setFeed 12 { lockedFeed .k88 with healthy := false }).setCondBit
      (progEntry 4 .noSource) true).onProg 4 fun g => { g with stack := [0] }
    s.inReset = false ∧ (s.entry (feedEntry 12 .feedLost)).timer = 0 ∧
      (s.entry (feedEntry 12 .feedLost)).state = .falling ∧
      (s.entry (feedEntry 12 .feedLost)).config.action = .failover ∧ (s.feed 12).healthy = false ∧
      (s.feed 12).port.enable = true ∧ s.progCond 4 .noSource = true ∧ (s.prog 4).state = .running ∧
      ∀ k', k' ≠ FeedCond.feedLost → (s.entry (feedEntry 12 k')).config.action = .failover →
        (s.entry (feedEntry 12 k')).state ≠ .active ∧ (s.entry (feedEntry 12 k')).state ≠ .falling := by
  refine ⟨by decide +kernel, by decide +kernel, by decide +kernel, by decide +kernel, by decide +kernel,
    by decide +kernel, by decide +kernel, by decide +kernel, fun k' => ?_⟩
  cases k' <;> decide +kernel

/-- A feed entry at a close in each state, at timers 0 to 2; the house reference's entry; and a raise that begins a swap
with every other entry handing nothing over. -/
theorem test_witness_AlarmTimersExpire_close :
    let s (st : EntryState) (n : Nat) := onRank1.setEntry 60 { config := ⟨.major, 5, 10, .failover⟩, state := st, timer := n }
    let u := (s .rising 1).onProg 4 fun g => { g with autoReturn := false }
    (∀ st ∈ [EntryState.clear, .rising, .active, .falling], ∀ n ∈ [0, 1, 2], (s st n).inReset = false ∧
        ((s st n).entry 60).state = st ∧ ((s st n).entry 60).timer = n ∧
        ((s st n).entry 60).config.severity ≠ .off) ∧
      ((60 : EntryId).val < 80 ∧ (60 : EntryId).val % 5 ≠ 4) ∧ (136 : EntryId) = houseRefEntry ∧
      (60 : EntryId) = feedEntry 12 .feedLost ∧ ({ expiriesApart := true } : CloseOrder).expiriesApart = true ∧
      ({} : CloseOrder).expiriesApart = false ∧
      (u.inReset = false ∧ (u.entry 60).state = .rising ∧ (u.entry 60).timer ≤ 1 ∧
        (u.entry 60).config.action = .failover ∧ (u.feed 12).healthy = true ∧ (∀ e', e' ≠ 60 → HandsNothing u e') ∧
        (u.prog 4).state = .running ∧ Names (u.prog 4).currentSet 12 ∧ u.progCond 4 .noSource = false ∧
        (u.prog 4).autoReturn = false) := by unfold HandsNothing Names; decide +kernel

/-- Entries with a delay of 0 whose condition changes, with action NONE, and with action FAILOVER on a healthy feed, on an
unhealthy one and, at its release, on an enabled one that no other entry holds unhealthy. -/
theorem test_witness_AlarmTimersExpire_setCond :
    let s (a : Action) (st : EntryState) (h : Bool) := ((onRank1.setEntry (feedEntry 12 .feedLost)
      { config := ⟨.major, 0, 0, a⟩, state := st }).setFeed 12 { lockedFeed .k88 with healthy := h }).setCondBit
      (feedEntry 12 .feedLost) (st == .active)
    (∀ a ∈ [Action.none, .failover], ∀ st ∈ [EntryState.clear, .active], ∀ h ∈ [true, false],
        ((s a st h).entry (feedEntry 12 .feedLost)).state = st ∧
        ((s a st h).entry (feedEntry 12 .feedLost)).config.action = a ∧
        ((s a st h).entry (feedEntry 12 .feedLost)).config.raiseDelay = 0 ∧
        ((s a st h).entry (feedEntry 12 .feedLost)).config.clearDelay = 0 ∧
        (s a st h).cond (feedEntry 12 .feedLost) = (st == .active) ∧ ((s a st h).feed 12).healthy = h ∧
        ((s a st h).feed 12).port.enable = true) ∧
      ∀ k', k' ≠ FeedCond.feedLost → ¬HoldsUnhealthy ((s .failover .active false).entry (feedEntry 12 k')) := by
  unfold HoldsUnhealthy
  refine ⟨by decide +kernel, fun k' => ?_⟩
  cases k' <;> decide +kernel

/-! ## The laws at the part as it stands after a power-on reset, with a command waiting -/

/-- A part with a command waiting. -/
def waiting : State := { ready with pending := [.houseRefEdge] }

theorem test_waiting_steps : ∃ t, step waiting = .next t := ⟨_, rfl⟩

theorem test_waiting_queueLaw : QueueLaw waiting := by unfold QueueLaw; decide +kernel

theorem test_waiting_pinLaw : PinLaw waiting := by unfold PinLaw AttnLaw LampLaw; decide +kernel

theorem test_waiting_gainLaw : GainLaw waiting := by unfold GainLaw LoudSettings.InRange; decide +kernel

theorem test_waiting_linkLaw : LinkLaw waiting := by unfold LinkLaw; decide +kernel

theorem test_waiting_silenceLaw : SilenceLaw waiting := by unfold SilenceLaw; decide +kernel

theorem test_waiting_poolLaw : PoolLaw waiting := by
  constructor
  · have h : (allProgs.flatMap fun p => (waiting.prog p).delay.chain) = [] := by decide +kernel
    have g : waiting.freePages = List.range Config.pageCount := by
      simp only [waiting, ready, State.reset, State.powerOn]
    rw [h, List.append_nil, g]
  · decide +kernel

theorem test_waiting_stackLaw : StackLaw waiting := by
  have h : ∀ p : ProgId, waiting.prog p = {} := by decide +kernel
  intro p
  rw [h p]
  refine ⟨by decide, fun r l hl => ?_⟩
  revert hl; revert r; intro r; fin_cases r <;> simp [Program.setAt]

theorem test_waiting_delayLaw : DelayLaw waiting := by unfold DelayLaw; decide +kernel

theorem test_waiting_storeLaw : StoreLaw waiting := by unfold StoreLaw; decide +kernel

/-- The conditions are false and the feeds are as at power-on. -/
theorem test_waiting_feedLaw : FeedLaw waiting := by
  have h : ∀ f : FeedId, waiting.feed f = {} := by decide +kernel
  have c : ∀ (f : FeedId) (k : FeedCond), waiting.feedCond f k = false := by
    intro f k; revert f; cases k <;> decide +kernel
  intro f
  simp [h f, c f]

theorem test_waiting_healthLaw : HealthLaw waiting := by
  have h : ∀ f : FeedId, waiting.feed f = {} := by decide +kernel
  intro f
  simp [h f]

theorem test_waiting_sourceLaw : SourceLaw waiting := by
  have h : ∀ p : ProgId, waiting.prog p = {} := by decide +kernel
  have c : ∀ p : ProgId, waiting.progCond p .noSource = false ∧ waiting.progCond p .onBackup = false := by decide +kernel
  intro p
  simp [h p, c p, Program.active]

theorem test_waiting_entryLaw : EntryLaw waiting := by unfold EntryLaw; decide +kernel

theorem test_waiting_sound : Sound waiting :=
  ⟨test_waiting_queueLaw, test_waiting_pinLaw, test_waiting_gainLaw, test_waiting_linkLaw,
    test_waiting_silenceLaw, test_waiting_poolLaw, test_waiting_stackLaw, test_waiting_delayLaw, test_waiting_storeLaw, test_waiting_feedLaw, test_waiting_healthLaw,
    test_waiting_sourceLaw, test_waiting_entryLaw⟩

/-- The queue at 31 and at 32 notices, a running program settled on its target, and the lamps' premises. -/
theorem test_witness_NoticeQueue_Lamps_Delay :
    let n : Notice := ⟨.restarted, .unit, [], 0⟩
    ({ ready with notices := List.replicate 31 n } : State).notices.length < 32 ∧
      32 ≤ ({ ready with notices := List.replicate 32 n } : State).notices.length ∧
      (waiting.inReset = false ∧ Instr.houseRefEdge ≠ .powerOnResetStart) ∧
      (surround.prog 0).state = .running ∧ (surround.prog 0).active = true ∧ (surround.prog 0).delay.op = .none ∧
      surround.progCond 0 .latencyUnder = false ∧ surround.progCond 0 .latencyOver = false := by decide +kernel

/-- The settled 5.1 program meets the law that the latency equation rests on. -/
theorem test_surround_delayLaw : DelayLaw surround := by unfold DelayLaw; decide +kernel

theorem test_surround_poolLaw : PoolLaw surround := by
  constructor
  · have h : (allProgs.flatMap fun p => (surround.prog p).delay.chain) = (List.range 4096).take 30 := by decide +kernel
    have g : surround.freePages = (List.range 4096).drop 30 := by
      simp only [surround, ready, State.setProg, State.setFeed]
    rw [h, g]
    exact List.perm_append_comm.trans (List.Perm.of_eq (List.take_append_drop _ _))
  · decide +kernel

theorem test_surround_stackLaw : StackLaw surround := by
  have h : ∀ p : ProgId, p ≠ 0 → surround.prog p = {} := by decide +kernel
  intro p
  by_cases hp : p = 0
  · subst hp
    refine ⟨by decide +kernel, fun r l hl => ?_⟩
    have e : ∀ r : Rank, ((surround.prog 0).setAt r).all (fun l => l.length == (surround.prog 0).slots) = true := by
      decide +kernel
    simpa [hl] using e r
  · rw [h p hp]
    refine ⟨by decide, fun r l hl => ?_⟩
    revert hl; revert r; intro r; fin_cases r <;> simp [Program.setAt]

/-- The 5.1 program meets the laws under which an output sample's values are stated, with both channels selected and a
SLEW in either direction. -/
theorem test_witness_OutputSample_values :
    StoreLaw surround ∧ PoolLaw surround ∧ StackLaw surround ∧ DelayLaw surround ∧ surround.inReset = false ∧
      (surround.prog 0).active = true ∧ (surround.prog 0).currentSet[0]? = some (src 2 .a) ∧
      (surround.prog 0).currentSet[5]? = some (src 5 .b) ∧ (5 : Fin 8).val < (surround.prog 0).slots ∧
      (surround.prog 0).slots ≤ (6 : Fin 8).val ∧ DelayLaw slewing ∧ (slewing.prog 0).delay.op = .slew :=
  ⟨by unfold StoreLaw; decide +kernel, test_surround_poolLaw, test_surround_stackLaw, test_surround_delayLaw,
    by decide +kernel, by decide +kernel, by decide +kernel, by decide +kernel, by decide +kernel, by decide +kernel,
    by unfold DelayLaw; decide +kernel, by decide +kernel⟩

end Sys2Proof.Tests
end

section
/-! PROOFS. The rate converters: the step of a span, the ratio estimate and the step used, the lock tests, what a span
makes of a converter, and what frames and output samples leave of it (R22 to R35). -/
namespace Sys2Proof.Machine

/-! ## The step of a span (R28) -/

theorem stepOf_mul_le (S : Nat) : stepOf S * S ≤ 2 ^ 35 + S / 2 := Nat.div_mul_le_self ..

theorem lt_succ_stepOf_mul {S : Nat} (h : 0 < S) : 2 ^ 35 + S / 2 < (stepOf S + 1) * S :=
  (Nat.lt_mul_div_succ _ h).trans_eq (Nat.mul_comm ..)

/-- The slow end of the 32 kHz window has the least step. -/
theorem le_stepOf {S : Nat} (h0 : 0 < S) (h : S ≤ 49643) : 692137 ≤ stepOf S :=
  (Nat.le_div_iff_mul_le h0).2 (by omega)

/-- The fast end of the 96 kHz window has the greatest step. -/
theorem stepOf_le {S : Nat} (h : 16221 ≤ S) : stepOf S ≤ 2118226 :=
  Nat.lt_succ_iff.1 ((Nat.div_lt_iff_lt_mul (by omega)).2 (by omega))

/-- The step is within a half of 2^35 over S, on both sides. -/
theorem stepOf_rounds {S : Nat} (h : 0 < S) :
    2 * 2 ^ 35 ≤ (2 * stepOf S + 1) * S ∧ (2 * stepOf S - 1) * S ≤ 2 * 2 ^ 35 := by
  have low := stepOf_mul_le S
  have high := lt_succ_stepOf_mul h
  rw [add_mul] at high
  rw [add_mul, Nat.sub_mul, mul_assoc]
  omega

/-- A span with its overflow mark set matches no class, whatever its ticks (R15, R16). -/
theorem spanVerdict_overflow (expected : Option RateClass) (S : Nat) : spanVerdict expected ⟨S, true⟩ = none := by
  simp [spanVerdict]

/-! ## The ratio estimate and the step used (R29, R31) -/

/-- The sixteenth of the distance never takes the estimate below 0, so nothing is cut off. -/
theorem updatedRatio_eq (r m : Nat) : (updatedRatio r m : Int) = (r : Int) + ((m : Int) - r + 8) / 16 := by
  unfold updatedRatio; omega

theorem updatedRatio_le_max (r m : Nat) : updatedRatio r m ≤ max r m := by
  have := updatedRatio_eq r m; omega

theorem min_le_updatedRatio (r m : Nat) : min r m ≤ updatedRatio r m := by
  have := updatedRatio_eq r m; omega

/-- A ratio of 2,048 or more stands the greatest correction downwards, the one of an empty FIFO. -/
theorem stepUsedOf_eq {r : Nat} (h : 2048 ≤ r) (fill : Nat) :
    (stepUsedOf r fill : Int) = (r : Int) + 128 * ((fill : Int) - 16) := by
  unfold stepUsedOf; omega

theorem stepUsedOf_empty (r : Nat) : stepUsedOf r 0 = r - 2048 := by
  unfold stepUsedOf; omega

theorem stepDistance_eq_natAbs (m r : Nat) : stepDistance m r = ((m : Int) - r).natAbs := by
  unfold stepDistance; omega

/-! ## The lock tests (R30) -/

namespace Converter

/-- The lock tests set the state and the two runs and leave every other field. -/
theorem lockTest_kept (c : Converter) (d : Nat) : c.lockTest d =
    { c with
      state := (c.lockTest d).state, lockRun := (c.lockTest d).lockRun, unlockRun := (c.lockTest d).unlockRun } := by
  unfold lockTest
  split
  · split
    · split <;> rfl
    · rfl
  · split
    · rfl
    · split <;> rfl
  · rfl
  · rfl

section
variable {c : Converter} {d : Nat}

theorem lockTest_track_near (hs : c.state = .track) (h : d ≤ 128) :
    (c.lockTest d).state = if 7 ≤ c.lockRun then .locked else .track := by
  by_cases run : 7 ≤ c.lockRun <;> simp [lockTest, hs, h, run]

theorem lockTest_track_far (hs : c.state = .track) (h : 128 < d) :
    (c.lockTest d).state = .track ∧ (c.lockTest d).lockRun = 0 := by
  simp [lockTest, hs, Nat.not_le.2 h]

theorem lockTest_locked_near (hs : c.state = .locked) (h : d ≤ 1024) :
    (c.lockTest d).state = .locked ∧ (c.lockTest d).unlockRun = 0 := by
  simp [lockTest, hs, h]

theorem lockTest_locked_far (hs : c.state = .locked) (h : 1024 < d) :
    (c.lockTest d).state = if 1 ≤ c.unlockRun then .track else .locked := by
  by_cases run : 1 ≤ c.unlockRun <;> simp [lockTest, hs, Nat.not_le.2 h, run]

end

/-! ## What a span makes of a converter (R22, R24 to R26, R29) -/

section
variable {c : Converter} {k : RateClass} (S : Nat)

theorem takeSpan_idle (hs : c.state = .idle) (v : Option RateClass) : c.takeSpan S v = c := by
  simp [takeSpan, hs]

theorem takeSpan_search_none (hs : c.state = .search) : c.takeSpan S none = c := by
  simp [takeSpan, hs]

theorem takeSpan_lost (hs : c.state = .track ∨ c.state = .locked) : c.takeSpan S none = c.enterSearch := by
  obtain hs | hs := hs <;> simp [takeSpan, hs]

theorem takeSpan_held (hs : c.state = .track ∨ c.state = .locked) (hk : c.cls = some k) :
    c.takeSpan S (some k) = c.heldSpan S := by
  obtain hs | hs := hs <;> simp [takeSpan, hs, hk]

theorem takeSpan_newClass (hs : c.state ≠ .idle) (hk : c.state = .search ∨ c.cls ≠ some k) :
    c.takeSpan S (some k) = c.setClass k S := by
  unfold takeSpan
  cases h : c.state with
  | idle => exact absurd h hs
  | search => rfl
  | track | locked => exact if_neg (by simpa [h] using hk)

/-- A span of no match is handed without its ticks. -/
theorem takeSpan_none_ticks (S' : Nat) : c.takeSpan S none = c.takeSpan S' none := by
  unfold takeSpan; cases c.state <;> rfl

/-- The three values the ratio estimate can have after a span of a class. -/
theorem takeSpan_some_ratio (c : Converter) (k : RateClass) :
    (c.takeSpan S (some k)).ratio = c.ratio ∨ (c.takeSpan S (some k)).ratio = stepOf S ∨
      (c.takeSpan S (some k)).ratio = updatedRatio c.ratio (stepOf S) := by
  cases h : c.state with
  | idle => exact .inl (by rw [takeSpan_idle S h])
  | search => exact .inr (.inl (by rw [takeSpan_newClass S (by simp [h]) (.inl h)]; rfl))
  | track | locked =>
    by_cases hk : c.cls = some k
    · exact .inr (.inr (by rw [takeSpan_held S (by simp [h]) hk]; rfl))
    · exact .inr (.inl (by rw [takeSpan_newClass S (by simp [h]) (.inr hk)]; rfl))

end

/-- R stays within 22 bits: a span leaves it, sets it to a step, or moves it towards one. -/
theorem takeSpan_ratio_lt {c : Converter} (k : RateClass) {S : Nat} (h : 16221 ≤ S) (hr : c.ratio < 2 ^ 22) :
    (c.takeSpan S (some k)).ratio < 2 ^ 22 := by
  have step := stepOf_le h
  have moved := updatedRatio_le_max c.ratio (stepOf S)
  obtain e | e | e := c.takeSpan_some_ratio S k <;> omega

/-- The new class's converter, with the correction of an empty FIFO written out. -/
theorem setClass_eq (c : Converter) (k : RateClass) (S : Nat) : c.setClass k S =
    { state := .track, cls := some k, ratio := stepOf S, stepUsed := stepOf S - 2048, refillWait := true
      slipCount := c.slipCount } := by
  rw [setClass, stepUsedOf_empty]

/-- A span of the held class computes R and U and sets the state and the runs by the lock tests, made with R as it stood;
every other field is left. -/
theorem heldSpan_eq (c : Converter) (S : Nat) :
    let tested := c.lockTest ((stepOf S : Int) - c.ratio).natAbs
    let moved := updatedRatio c.ratio (stepOf S)
    c.heldSpan S = { c with
      state := tested.state, lockRun := tested.lockRun, unlockRun := tested.unlockRun
      ratio := moved, stepUsed := stepUsedOf moved c.fill } := by
  unfold heldSpan
  dsimp only
  rw [← stepDistance_eq_natAbs, lockTest_kept]

/-! ## What frames and output samples leave of a converter (R23, R32 to R35) -/

/-- What the flow of frames leaves of a converter: the state, the class, R, U and the runs of the lock tests. -/
def Kept (c d : Converter) : Prop :=
  d = { c with
    fifo := d.fifo, phase := d.phase, history := d.history, lastConsumed := d.lastConsumed
    refillWait := d.refillWait, slipCount := d.slipCount }

theorem Kept.refl (c : Converter) : c.Kept c := rfl

theorem Kept.trans {a b c : Converter} (h : a.Kept b) (g : b.Kept c) : a.Kept c := by
  unfold Kept at *; rw [g, h]

theorem Kept.ratio {c d : Converter} (h : c.Kept d) : d.ratio = c.ratio := by rw [h]

theorem Kept.stepUsed {c d : Converter} (h : c.Kept d) : d.stepUsed = c.stepUsed := by rw [h]

theorem consume_kept (k : Nat) (c : Converter) : c.Kept (consume k c).1 := by
  induction k generalizing c with
  | zero => exact .refl c
  | succ k ih =>
    unfold consume
    split
    · refine .trans ?_ (ih _)
      rfl
    · rfl

theorem takeFrame_kept (c : Converter) (fr : InFrame) : c.Kept (c.takeFrame fr).1 := by
  unfold takeFrame
  split
  · exact .refl c
  · exact .refl c
  · split <;> rfl

theorem advance_kept (c : Converter) : c.Kept c.advance.1 := by
  unfold advance
  split
  · exact .refl c
  · exact .refl c
  · split
    · exact .refl c
    · refine .trans ?_ (consume_kept ..)
      rfl

end Converter

/-! ## The statements -/

/-- Settles O18: the quotient is within a half of 2^35 over S, the ends of the windows bound it, and an estimate
never passes the step it moves towards. -/
theorem stepIsRoundedRatio : Obligations.StepIsRoundedRatio := by
  refine ⟨fun S h0 h1 => ?_, fun c S S' => c.takeSpan_none_ticks S S', spanVerdict_overflow,
    fun c k S h0 _ hr => c.takeSpan_ratio_lt k h0 hr⟩
  have pos : 0 < S := by omega
  have top := stepOf_le h0
  obtain ⟨low, high⟩ := stepOf_rounds pos
  exact ⟨rfl, low, high, le_stepOf pos h1, top, by omega⟩

/-- Settles O19, by what a span does in each state and by what the flow of frames keeps. -/
theorem spanMovesRatioAndStep : Obligations.SpanMovesRatioAndStep := by
  intro c k S fr h0 h1
  have pos : 0 < S := by omega
  have least := le_stepOf pos h1
  refine ⟨fun hs hk hr => ?held, fun hs hk => ?newClass, c.takeSpan_lost S, c.takeSpan_search_none S,
    (c.takeFrame_kept fr).ratio, c.advance_kept.ratio, (c.takeFrame_kept fr).stepUsed, c.advance_kept.stepUsed⟩
  case held =>
    have between := min_le_updatedRatio c.ratio (stepOf S)
    have ratio := updatedRatio_eq c.ratio (stepOf S)
    have used := stepUsedOf_eq (r := updatedRatio c.ratio (stepOf S)) (by omega) c.fifo.length
    dsimp only
    rw [Converter.takeSpan_held S hs hk, Converter.heldSpan_eq]
    exact ⟨ratio, used, fun _ => by dsimp only [Converter.fill]; omega, hk, rfl, rfl, rfl, Converter.lockTest_track_near,
      Converter.lockTest_track_far, Converter.lockTest_locked_near, Converter.lockTest_locked_far⟩
  case newClass =>
    rw [Converter.takeSpan_newClass S hs hk, Converter.setClass_eq]
    exact ⟨Nat.sub_add_cancel (by omega), rfl⟩

end Sys2Proof.Machine
end

section
/-! PROOFS. The alarm table and the lamps: what ALARM_CONFIG leaves of the entry it names, the timers that a condition's
change starts (R134, R136, R143), and the lamps at the end of every command and step (R142, R157, R158). -/
namespace Sys2Proof.Machine

/-! ## Reading the body of an ALARM_CONFIG (R143, R159) -/

@[simp] theorem wordAt_succ (b : Byte) (l : List Byte) (i : Nat) : wordAt (b :: l) (i + 1) = wordAt l i := rfl

@[simp] theorem wordAt_byte2_succ (n : Nat) (l : List Byte) (i : Nat) : wordAt (byte2 n ++ l) (i + 2) = wordAt l i := rfl

@[simp] theorem byteAt_byte2_succ (n : Nat) (l : List Byte) (i : Nat) : byteAt (byte2 n ++ l) (i + 2) = byteAt l i := rfl

/-- A delay is stored as sent or as 255, whichever is less. -/
@[simp] theorem contField_delay_stored (n : Nat) : (contField 0 255 n).stored.toNat = min n 255 := by
  simp only [contField, clampInt]; omega

/-- What an ALARM_CONFIG with legal fields stores and answers (R143). -/
theorem evalAlarmConfig_legal {body : List Byte} {e : EntryId} {sev : Severity} {up down : Nat} {act : Action} (s : State)
    (hup : up < 65536) (hdown : down < 65536) (legal : act = .none ∨ failoverLegal e = true)
    (hb : body = [BitVec.ofNat 8 e.val, BitVec.ofNat 8 sev.code] ++ byte2 up ++ byte2 down ++
      [BitVec.ofNat 8 act.code]) :
    evalAlarmConfig body s = .ok
      { adjusted := (contField 0 255 up).adjusted || (contField 0 255 down).adjusted
        fields := byte1 sev.code ++ byte2 (min up 255) ++ byte2 (min down 255) ++ byte1 act.code
        after := storeEntryConfig e ⟨sev, min up 255, min down 255, act⟩ s } := by
  have allowed : (act == .none || failoverLegal e) = true := by simpa using legal
  have entry : byteAt body 0 = (BitVec.ofNat 8 e.val).toNat := by subst hb; rfl
  have severity : byteAt body 1 = (BitVec.ofNat 8 sev.code).toNat := by subst hb; rfl
  have action : byteAt body 6 = (BitVec.ofNat 8 act.code).toNat := by subst hb; rfl
  have raiseDelay : wordAt body 2 = up := by subst hb; simp [Nat.mod_eq_of_lt hup]
  have clearDelay : wordAt body 4 = down := by subst hb; simp [Nat.mod_eq_of_lt hdown]
  simp only [evalAlarmConfig, entry, severity, action, raiseDelay, clearDelay, entryIndex_val, severityOfCode_val,
    actionOfCode_val, enumField, bind, Except.bind, allowed, require_true, contField_delay_stored]

/-! ## What a change of feed health leaves of the alarm table (R62, R63, R70) -/

theorem ProgEffect.feedTrigger (f : FeedId) (b : Bool) (p : ProgId) (s : State) :
    ProgEffect p s (feedTrigger f b p s) := by
  unfold Machine.feedTrigger
  dsimp only
  split
  · exact .onProg ..
  · exact .refl p s

/-- A health change of a feed reaches a program's own record, conditions and entries. -/
theorem ProgEffect.healthReaches (f : FeedId) (p : ProgId) (s : State) : ProgEffect p s (healthReaches f p s) := by
  have event : ProgEffect p s (if (s.prog p).namesFeed f then Machine.eligibilityEvent p s else s) := by
    split
    · exact .eligibilityEvent p s
    · exact .refl p s
  unfold Machine.healthReaches
  dsimp only
  split
  · exact event
  · exact event.trans (.feedTrigger ..)

/-- An entry of no program is left by a change of a feed's health. -/
theorem judgeHealth_entry {e : EntryId} (he : ∀ p k, e ≠ progEntry p k) (f : FeedId) (s : State) :
    (judgeHealth f s).entry e = s.entry e := by
  unfold judgeHealth
  dsimp only
  split
  · rfl
  · rw [forEach_proj (π := fun t => t.entry e) fun p t => (ProgEffect.healthReaches f p t).entry e (he p)]
    rfl

/-! ## ALARM_CONFIG and the entry it names -/

/-- The entry named takes its four fields and nothing else, whatever the change of action hands to its feed. -/
theorem storeEntryConfig_entry_self (e : EntryId) (c : EntryConfig) (s : State) :
    (storeEntryConfig e c s).entry e = (s.entry e).configured c := by
  unfold storeEntryConfig
  dsimp only
  split
  · split
    · next f source =>
      have noProgram (p : ProgId) (k : ProgCond) : e ≠ progEntry p k := by
        rintro rfl; simp [entrySource_progEntry] at source
      rw [judgeHealth_entry noProgram, State.setEntry_entry_self]
    all_goals exact State.setEntry_entry_self ..
  · exact State.setEntry_entry_self ..

@[simp] theorem replying_entry (k : Kind) (body : List Byte) (t : State) (e : EntryId) :
    (replying k body t).entry e = t.entry e := rfl

/-- An ALARM_CONFIG with legal fields leaves the entry it names with them and as it stood otherwise. -/
theorem exec_alarmConfig_entry {s : State} {m : Msg} {e : EntryId} {sev : Severity} {up down : Nat} {act : Action}
    (h : Commands s m) (hup : up < 65536) (hdown : down < 65536) (legal : act = .none ∨ failoverLegal e = true)
    (hb : m.body = [BitVec.ofNat 8 e.val, BitVec.ofNat 8 sev.code] ++ byte2 up ++ byte2 down ++
      [BitVec.ofNat 8 act.code]) :
    ∃ t, exec (.alarmConfig m) s = .next t ∧
      t.entry e = (s.entry e).configured ⟨sev, min up 255, min down 255, act⟩ := by
  have len : Kind.alarmConfig.lengthOk m.body.length = true := by rw [hb]; rfl
  exact ⟨_, onUnit_deliver_ok h len (evalAlarmConfig_legal s hup hdown legal hb), storeEntryConfig_entry_self ..⟩

/-! ## The timers a condition's change starts (R134) -/

/-- An entry in CLEAR with a raise delay rises, and hands nothing over. -/
theorem setCond_true_of_clear {s : State} {e : EntryId} (hs : (s.entry e).state = .clear)
    (hd : (s.entry e).config.raiseDelay ≠ 0) (hc : s.cond e = false) :
    setCond e true s = (s.setCondBit e true).setEntry e
      { s.entry e with state := .rising, timer := (s.entry e).config.raiseDelay } := by
  have rises : follow e true s = ((s.setCondBit e true).setEntry e
      { s.entry e with state := .rising, timer := (s.entry e).config.raiseDelay }, .none) := by
    simp [follow, conditionTrue, hs, hd, hc]
  rw [setCond, rises, handOver_none]

/-- An entry in ACTIVE with a clear delay falls, and hands nothing over. -/
theorem setCond_false_of_active {s : State} {e : EntryId} (hs : (s.entry e).state = .active)
    (hd : (s.entry e).config.clearDelay ≠ 0) (hc : s.cond e = true) :
    setCond e false s = (s.setCondBit e false).setEntry e
      { s.entry e with state := .falling, timer := (s.entry e).config.clearDelay } := by
  have falls : follow e false s = ((s.setCondBit e false).setEntry e
      { s.entry e with state := .falling, timer := (s.entry e).config.clearDelay }, .none) := by
    simp [follow, conditionFalse, hs, hd, hc]
  rw [setCond, falls, handOver_none]

/-- Settles O48: ALARM_CONFIG rewrites the entry by `Entry.configured`, which leaves state and timer, and the next timer
is started with the delay that stands in the entry. -/
theorem configLeavesRunningTimer : Obligations.ConfigLeavesRunningTimer := by
  refine ⟨fun s m e sev up down act h hup hdown legal hb => ?stored, fun s e => ⟨fun hs hd hc => ?rises,
    fun hs hd hc => ?falls⟩⟩
  case stored =>
    obtain ⟨t, ht, entry⟩ := exec_alarmConfig_entry h hup hdown legal hb
    refine ⟨t, ht, ?_⟩
    rw [entry]
    exact ⟨rfl, rfl, rfl, rfl⟩
  case rises =>
    rw [setCond_true_of_clear hs hd hc, State.setEntry_entry_self]
    exact ⟨rfl, rfl⟩
  case falls =>
    rw [setCond_false_of_active hs hd hc, State.setEntry_entry_self]
    exact ⟨rfl, rfl⟩

/-! ## How every command ends -/

/-- Every command but the two of a power-on reset is an `onUnit`, and those two judge the pins in any state. -/
theorem exec_ends (c : Instr) (s : State) :
    (∃ f, exec c s = onUnit f s) ∨ ∃ u, exec c s = .next (judgePins u) := by
  cases c with
  | powerOnResetStart => exact .inr ⟨_, rfl⟩
  | powerOnReset u b => exact .inr ⟨_, rfl⟩
  | badKindFrame k m => exact .inl ⟨fun t => if (readKind k).isSome then t else deliverBadKind k m t, rfl⟩
  | _ => exact .inl ⟨_, rfl⟩

/-- A command leaves a part in a power-on reset as it is, or ends with the pins judged. -/
theorem exec_next {c : Instr} {s t : State} (h : exec c s = .next t) :
    (s.inReset = true ∧ t = s) ∨ ∃ u, t = judgePins u := by
  obtain ⟨f, run⟩ | ⟨u, run⟩ := exec_ends c s
  · obtain kept | ⟨-, judged⟩ := onUnit_next (run.symm.trans h)
    · exact .inl kept
    · exact .inr ⟨f s, judged⟩
  · injection run.symm.trans h with judged
    exact .inr ⟨u, judged.symm⟩

/-! ## The lamps (R142) -/

/-- Both lamps follow the entries. -/
def LampsLaw (s : State) : Prop := LampLaw s .major s.lampMajor ∧ LampLaw s .minor s.lampMinor

theorem judgePins_lampsLaw (s : State) : LampsLaw (judgePins s) := (judgePins_pinLaw s).2

/-- The law reads no timer. -/
theorem LampsLaw.timers {s : State} (law : LampsLaw s) (m : Monitor) (r : Receiver) (n : Nat) :
    LampsLaw { s with monitor := m, rx := r, tick := n } := law

/-- Where no entry is latched, both lamps are dark. -/
theorem judgePins_dark {s : State} (h : ∀ e, (s.entry e).latched = false) :
    (judgePins s).lampMajor = false ∧ (judgePins s).lampMinor = false := by
  have unlit (sev : Severity) (lamp : Bool) (law : LampLaw (judgePins s) sev lamp) : lamp = false := by
    refine Bool.eq_false_iff.2 fun lit => ?_
    obtain ⟨-, e, -, latched, -⟩ := law.1 lit
    simp [h e] at latched
  obtain ⟨major, minor⟩ := judgePins_lampsLaw s
  exact ⟨unlit _ _ major, unlit _ _ minor⟩

/-- A command keeps the law. -/
theorem exec_lampsLaw {c : Instr} {s t : State} (law : LampsLaw s) (h : exec c s = .next t) : LampsLaw t := by
  obtain ⟨-, rfl⟩ | ⟨u, rfl⟩ := exec_next h
  · exact law
  · exact judgePins_lampsLaw u

/-- Passing ticks moves timers of the ports and of the unit, and nothing that the lamps follow. -/
theorem passTicks_lampsLaw {s : State} (law : LampsLaw s) (n : Nat) : LampsLaw (passTicks n s) := by
  have port (f : FeedId) (t : State) (kept : LampsLaw t) : LampsLaw (t.onPort f (Port.pass n)) := kept
  have ports := forEach_induction port allFeeds s law
  exact ports.timers _ _ _

/-- What a part with no command waiting does: nothing, one due event, or one master tick. -/
theorem idle_next {s t : State} (h : idle s = .next t) :
    t = s ∨ (∃ c, exec c { s with freeCount := s.freeCount + 1 } = .next t) ∨ t = passTicks 1 s := by
  unfold idle at h
  split at h
  · injection h with h; exact .inl h.symm
  · split at h
    · next r picked =>
      unfold pickDue at picked
      split at picked
      · cases picked
      · injection picked with picked; subst picked; exact .inr (.inl ⟨_, h⟩)
    · injection h with h; exact .inr (.inr h.symm)

/-- Every step keeps the law. -/
theorem step_lampsLaw {s t : State} (law : LampsLaw s) (h : step s = .next t) : LampsLaw t := by
  unfold step at h
  split at h
  · next rest _ => exact exec_lampsLaw (s := { s with pending := rest }) law h
  · obtain rfl | ⟨c, h⟩ | rfl := idle_next h
    · exact law
    · exact exec_lampsLaw (s := { s with freeCount := s.freeCount + 1 }) law h
    · exact passTicks_lampsLaw law 1

/-! ## The resets (R157, R158) -/

theorem leaveReset_entry (u : BitVec 5) (b : BitVec 2) (s : State) (e : EntryId) :
    (leaveReset u b s).entry e = { config := defaultConfig e } := by
  simp [leaveReset, State.powerOn, State.entry]

theorem unitRestart_entry (s : State) (e : EntryId) : (unitRestart s).entry e = (s.entry e).restarted := by
  rw [unitRestart, pushNotice_entry]; simp [State.entry]

/-- Settles O53: every command that acts ends by judging the pins, the work without a command does so or moves timers
alone, and no entry is latched after either reset. -/
theorem lampsFollowEntries : Obligations.LampsFollowEntries := by
  refine ⟨fun c s t running _ h => ?command, fun s t major minor h => step_lampsLaw ⟨major, minor⟩ h,
    fun s t u b h => ?powerOn, fun s t running h => ?restart⟩
  case command =>
    obtain ⟨hr, -⟩ | ⟨u, rfl⟩ := exec_next h
    · simp [running] at hr
    · exact judgePins_lampsLaw u
  case powerOn =>
    injection h with h
    subst h
    exact judgePins_dark fun e => by rw [leaveReset_entry]
  case restart =>
    have restarted : exec .unitRestart s = .next (judgePins (unitRestart s)) := onUnit_running running
    injection restarted.symm.trans h with h
    subst h
    exact judgePins_dark fun e => by rw [unitRestart_entry]; rfl

end Sys2Proof.Machine
end

section
/-! PROOFS. What a step of the part can do, said once: a command works on the feeds, the programs, the pool and the
alarm table by one of the effects of `Work`, and the queue, the line, the clock's positions and the pins are changed
around it. -/
namespace Sys2Proof.Machine

/-! ## The records the laws read -/

/-- Two states hold the same feeds, programs, pages, samples, alarm entries and conditions, the second with no more
notices. -/
structure SameUnit (s t : State) : Prop where
  feeds : t.feeds = s.feeds
  progs : t.progs = s.progs
  freePages : t.freePages = s.freePages
  store : t.store = s.store
  entries : t.entries = s.entries
  conds : t.conds = s.conds
  notices : t.notices.length ≤ s.notices.length

namespace SameUnit

@[refl] theorem refl (s : State) : SameUnit s s := ⟨rfl, rfl, rfl, rfl, rfl, rfl, le_rfl⟩

theorem trans {a b c : State} (h : SameUnit a b) (g : SameUnit b c) : SameUnit a c :=
  ⟨g.feeds.trans h.feeds, g.progs.trans h.progs, g.freePages.trans h.freePages, g.store.trans h.store,
    g.entries.trans h.entries, g.conds.trans h.conds,
    g.notices.trans h.notices⟩

end SameUnit

theorem SameUnit.judgePins (s : State) : SameUnit s (judgePins s) := ⟨rfl, rfl, rfl, rfl, rfl, rfl, le_rfl⟩

theorem SameUnit.countOverruns (n : Nat) (s : State) : SameUnit s (countOverruns n s) := ⟨rfl, rfl, rfl, rfl, rfl, rfl, le_rfl⟩

theorem SameUnit.toHunt (s : State) : SameUnit s (toHunt s) := ⟨rfl, rfl, rfl, rfl, rfl, rfl, le_rfl⟩

theorem SameUnit.beginReply (kb : Byte) (body : List Byte) (s : State) : SameUnit s (beginReply kb body s) :=
  ⟨rfl, rfl, rfl, rfl, rfl, rfl, le_rfl⟩

theorem SameUnit.withRx (s : State) (r : Receiver) : SameUnit s (s.withRx r) := ⟨rfl, rfl, rfl, rfl, rfl, rfl, le_rfl⟩

/-! ## The effects of commands -/

/-- The effect of a command on the records that the laws read, under the tests its meaning makes. -/
inductive Work : State → State → Prop
  | none (s) : Work s s
  | storeFeedConfig (f en ex par val s) : Work s (storeFeedConfig f en ex par val s)
  | clearFeedCounters (f s) : Work s (clearFeedCounters f s)
  | defineProgram {p s} (c ws) (idle : (s.prog p).idle = true) : Work s (defineProgram p c ws s)
  | clearProgram {p s} (state : (s.prog p).state = .defined) : Work s (clearProgram p s)
  | storeSet {p r s} (l) (taken : setTaken (s.prog p) r (rankSet (s.prog p).slots l) = true) :
      Work s (storeSet p r (rankSet (s.prog p).slots l) s)
  | startProgram {p s} (state : (s.prog p).state = .defined) (set : ((s.prog p).setAt 0).isSome = true)
      (reserve : 1 ≤ (s.prog p).delay.reserve) : Work s (startProgram p s)
  | stopProgram {p s} (state : (s.prog p).state = .running) : Work s (stopProgram p s)
  | restartProgram {p s} (running : (s.prog p).running = true) : Work s (restartProgram p s)
  | selectCurrent {p r s} (running : (s.prog p).running = true) (set : ((s.prog p).setAt r).isSome = true)
      (current : (s.prog p).currentRank = some r) : Work s (selectCurrent p r s)
  | beginSelect {p r s} (running : (s.prog p).running = true) :
      Work s (s.onProg p (·.startFadeOut .select (some r)))
  | storeFailover {p s} (auto hold reset) : Work s (s.onProg p (·.storeFailover auto hold reset))
  | storeLoud {p s} (mode body) (link : Nat) (legal : link ≤ 4) :
      Work s (s.onProg p fun g => { g with loud := { g.loud with pending := settingsOf mode (readLevels body) link } })
  | restartMeasurement (p s) : Work s (restartMeasurement p s)
  | rebuildChain {p s} (P) (state : (s.prog p).state = .defined) (room : (s.prog p).slots * P ≤ pageRoom s p) :
      Work s (rebuildChain p P s)
  | storeTarget (p ltgt slew n s) : Work s (storeTarget p ltgt slew n s)
  | storeEntryConfig {e s} (c : EntryConfig) (legal : c.action = .failover → failoverLegal e = true)
      (up : c.raiseDelay ≤ 255) (down : c.clearDelay ≤ 255) : Work s (storeEntryConfig e c s)
  | acknowledge (es s) : Work s (forEach es (fun e t => t.setEntry e (t.entry e).acked) s)
  | frameEdge (f first s) : Work s (frameEdge f first s)
  | subframeReceived (f w s) : Work s (subframeReceived f w s)
  | declareLoss {f s} (first) (due : lossIsDue s f = true) : Work s (declareLoss f first s)
  | outputSample (s) : Work s (outputSample s)
  | passTicks (n s) : Work s (passTicks n s)
  | endStartFade (p s) : Work s (s.onProg p fun g => { g with outDir := .none })
  | endStopFade {p s} (state : (s.prog p).state = .stopping) : Work s (endStopFade p s)
  | swapSwitch {p s} (running : (s.prog p).running = true) : Work s (swapSwitch p s)
  | endSwap (p s) : Work s (s.onProg p Program.endSwap)
  | blockClose (o s) : Work s (blockClose o s)
  | silenceTimeout {p s} (due : silenceIsDue s p = true) : Work s (setProgCond p .silence true s)
  | beginReturn (p s) : Work s (beginReturn p s)
  | slewComplete {p s} (due : slewIsDue s p = true) : Work s (slewComplete p s)
  | cutJump (p s) : Work s (cutJump p s)
  | cutInEnd (p s) : Work s (cutInEnd p s)
  | expireRaise (e s) : Work s (expireRaise e s)
  | expireClear (e s) : Work s (expireClear e s)
  | refEdge (s) : Work s (refEdge s)
  | loseRef (s) : Work s (loseRef s)
  | unitRestart (s) : Work s (unitRestart s)
  | leaveReset (u b s) : Work s (leaveReset u b s)

/-- An effect of `Work`, with changes around it that the laws do not read. -/
def Works (s t : State) : Prop := ∃ u v, SameUnit s u ∧ Work u v ∧ SameUnit v t

theorem Work.works {s t : State} (h : Work s t) : Works s t := ⟨s, t, .refl s, h, .refl t⟩

theorem SameUnit.works {s t : State} (h : SameUnit s t) : Works s t := ⟨s, s, .refl s, .none s, h⟩

theorem Works.after {s t u : State} (h : Works s t) (g : SameUnit t u) : Works s u := by
  obtain ⟨a, b, ha, w, hb⟩ := h
  exact ⟨a, b, ha, w, hb.trans g⟩

theorem Works.before {s t u : State} (g : SameUnit s t) (h : Works t u) : Works s u := by
  obtain ⟨a, b, ha, w, hb⟩ := h
  exact ⟨a, b, g.trans ha, w, hb⟩

theorem Works.onlyIf {s t : State} {b : Bool} (h : b = true → Work s t) : Works s (if b = true then t else s) := by
  split
  · exact (h ‹_›).works
  · exact (SameUnit.refl s).works

/-- Two states agree on what no message touches: the queue of commands and the counter of choices, the straps, the reset
and its cause, the clock's positions, the block counter, the monitor, the output ports and the Delay Store. -/
structure FrameKept (s t : State) : Prop where
  pending : t.pending = s.pending
  freeCount : t.freeCount = s.freeCount
  unitAddr : t.unitAddr = s.unitAddr
  baud : t.baud = s.baud
  inReset : t.inReset = s.inReset
  resetCause : t.resetCause = s.resetCause
  blockCounter : t.blockCounter = s.blockCounter
  tick : t.tick = s.tick
  sampleInBlock : t.sampleInBlock = s.sampleInBlock
  monitor : t.monitor = s.monitor
  ports : t.ports = s.ports
  store : t.store = s.store

theorem FrameKept.refl (s : State) : FrameKept s s := ⟨rfl, rfl, rfl, rfl, rfl, rfl, rfl, rfl, rfl, rfl, rfl, rfl⟩

/-- The effect of a message that passes its tests, under those tests. -/
inductive Ordered : State → State → Prop
  | same {s t} (unit : SameUnit s t) (frame : FrameKept s t) : Ordered s t
  | storeFeedConfig (f en ex par val s) : Ordered s (storeFeedConfig f en ex par val s)
  | clearFeedCounters (f s) : Ordered s (clearFeedCounters f s)
  | defineProgram {p s} (c ws) (idle : (s.prog p).idle = true) : Ordered s (defineProgram p c ws s)
  | clearProgram {p s} (state : (s.prog p).state = .defined) : Ordered s (clearProgram p s)
  | storeSet {p r s} (l) (taken : setTaken (s.prog p) r (rankSet (s.prog p).slots l) = true) :
      Ordered s (storeSet p r (rankSet (s.prog p).slots l) s)
  | startProgram {p s} (state : (s.prog p).state = .defined) (set : ((s.prog p).setAt 0).isSome = true)
      (reserve : 1 ≤ (s.prog p).delay.reserve) : Ordered s (startProgram p s)
  | stopProgram {p s} (state : (s.prog p).state = .running) : Ordered s (stopProgram p s)
  | restartProgram {p s} (running : (s.prog p).running = true) : Ordered s (restartProgram p s)
  | selectCurrent {p r s} (running : (s.prog p).running = true) (set : ((s.prog p).setAt r).isSome = true)
      (current : (s.prog p).currentRank = some r) : Ordered s (selectCurrent p r s)
  | beginSelect {p r s} (running : (s.prog p).running = true) :
      Ordered s (s.onProg p (·.startFadeOut .select (some r)))
  | storeFailover {p s} (auto hold reset) : Ordered s (s.onProg p (·.storeFailover auto hold reset))
  | storeLoud {p s} (mode body) (link : Nat) (legal : link ≤ 4) :
      Ordered s (s.onProg p fun g => { g with loud := { g.loud with pending := settingsOf mode (readLevels body) link } })
  | restartMeasurement (p s) : Ordered s (restartMeasurement p s)
  | rebuildChain {p s} (P) (state : (s.prog p).state = .defined) (room : (s.prog p).slots * P ≤ pageRoom s p) :
      Ordered s (rebuildChain p P s)
  | storeTarget (p ltgt slew n s) : Ordered s (storeTarget p ltgt slew n s)
  | storeEntryConfig {e s} (c : EntryConfig) (legal : c.action = .failover → failoverLegal e = true)
      (up : c.raiseDelay ≤ 255) (down : c.clearDelay ≤ 255) : Ordered s (storeEntryConfig e c s)
  | acknowledge (es s) : Ordered s (forEach es (fun e t => t.setEntry e (t.entry e).acked) s)

theorem Ordered.works {s t : State} (h : Ordered s t) : Works s t := by
  cases h with
  | same unit _ => exact unit.works
  | storeFeedConfig f en ex par val => exact (Work.storeFeedConfig f en ex par val s).works
  | clearFeedCounters f => exact (Work.clearFeedCounters f s).works
  | defineProgram c ws idle => exact (Work.defineProgram c ws idle).works
  | clearProgram state => exact (Work.clearProgram state).works
  | storeSet l taken => exact (Work.storeSet l taken).works
  | startProgram state set reserve => exact (Work.startProgram state set reserve).works
  | stopProgram state => exact (Work.stopProgram state).works
  | restartProgram running => exact (Work.restartProgram running).works
  | selectCurrent running set current => exact (Work.selectCurrent running set current).works
  | beginSelect running => exact (Work.beginSelect running).works
  | storeFailover auto hold reset => exact (Work.storeFailover auto hold reset).works
  | storeLoud mode body link legal => exact (Work.storeLoud mode body link legal).works
  | restartMeasurement p => exact (Work.restartMeasurement p s).works
  | rebuildChain P state room => exact (Work.rebuildChain P state room).works
  | storeTarget p ltgt slew n => exact (Work.storeTarget p ltgt slew n s).works
  | storeEntryConfig c legal up down => exact (Work.storeEntryConfig c legal up down).works
  | acknowledge es => exact (Work.acknowledge es s).works

/-! ## Messages that pass their tests (R151) -/

/-- A chain of tests passes exactly where its first passes and the rest does. -/
theorem bind_eq_ok {α β : Type} {x : Except Status α} {f : α → Except Status β} {b : β} :
    x >>= f = .ok b ↔ ∃ a, x = .ok a ∧ f a = .ok b := by
  cases x <;> simp [bind, Except.bind]

theorem enumField_eq_ok {α : Type} {x : Option α} {a : α} : enumField x = .ok a ↔ x = some a := by
  cases x <;> simp [enumField]

theorem require_eq_ok {b : Bool} {st : Status} {u : Unit} : require b st = .ok u ↔ b = true := by
  cases b <;> simp [require]

theorem ok_eq_ok {α : Type} {a b : α} : (Except.ok a : Except Status α) = .ok b ↔ a = b := by simp

/-- A delay of an alarm entry is stored within its range. -/
theorem contField_toNat_le (lo hi : Nat) (x : Int) : (contField lo hi x).stored.toNat ≤ max lo hi := by
  simp only [contField, clampInt]; omega

theorem linkOfCode_le {n k : Nat} (h : linkOfCode n = some k) : k ≤ 4 := by
  unfold linkOfCode at h
  split at h
  · injection h with h; omega
  · cases h

theorem evalIdent_ordered {body : List Byte} {s : State} {t : Taken} (h : evalIdent body s = .ok t) :
    Ordered s t.after := by
  cases h; exact .same (.refl s) (.refl s)

theorem evalRestart_ordered {b : Bool} {body : List Byte} {s : State} {t : Taken} (h : evalRestart b body s = .ok t) :
    Ordered s t.after := by
  cases h
  exact .same ⟨rfl, rfl, rfl, rfl, rfl, rfl, le_rfl⟩ ⟨rfl, rfl, rfl, rfl, rfl, rfl, rfl, rfl, rfl, rfl, rfl, rfl⟩

theorem evalLinkStats_ordered {body : List Byte} {s : State} {t : Taken} (h : evalLinkStats body s = .ok t) :
    Ordered s t.after := by
  obtain ⟨clear, -, h⟩ := bind_eq_ok.1 h
  cases h
  cases clear
  · exact .same (.refl s) (.refl s)
  · exact .same ⟨rfl, rfl, rfl, rfl, rfl, rfl, le_rfl⟩ ⟨rfl, rfl, rfl, rfl, rfl, rfl, rfl, rfl, rfl, rfl, rfl, rfl⟩

theorem evalNotices_ordered {body : List Byte} {s : State} {t : Taken} (h : evalNotices body s = .ok t) :
    Ordered s t.after := by
  cases h
  refine .same ⟨rfl, rfl, rfl, rfl, rfl, rfl, ?_⟩ ⟨rfl, rfl, rfl, rfl, rfl, rfl, rfl, rfl, rfl, rfl, rfl, rfl⟩
  rw [List.length_drop]
  exact Nat.sub_le _ _

theorem evalFeedConfig_ordered {body : List Byte} {s : State} {t : Taken} (h : evalFeedConfig body s = .ok t) :
    Ordered s t.after := by
  simp only [evalFeedConfig, bind_eq_ok, ok_eq_ok] at h
  obtain ⟨f, -, en, -, ex, -, par, -, val, -, rfl⟩ := h
  exact .storeFeedConfig f en ex par val s

theorem evalFeedQuery_ordered {body : List Byte} {s : State} {t : Taken} (h : evalFeedQuery body s = .ok t) :
    Ordered s t.after := by
  simp only [evalFeedQuery, bind_eq_ok, ok_eq_ok] at h
  obtain ⟨f, -, clear, -, rfl⟩ := h
  dsimp only
  split
  · exact .clearFeedCounters f s
  · exact .same (.refl s) (.refl s)

theorem evalProgDefine_ordered {body : List Byte} {s : State} {t : Taken} (h : evalProgDefine body s = .ok t) :
    Ordered s t.after := by
  simp only [evalProgDefine, bind_eq_ok, require_eq_ok, ok_eq_ok] at h
  obtain ⟨p, -, ws, -, -, idle, rfl⟩ := h
  dsimp only
  exact .defineProgram _ _ idle

theorem evalProgClear_ordered {body : List Byte} {s : State} {t : Taken} (h : evalProgClear body s = .ok t) :
    Ordered s t.after := by
  obtain ⟨p, -, h⟩ := bind_eq_ok.1 h
  split at h
  · cases h; exact .same (.refl s) (.refl s)
  · next state =>
    rw [ok_eq_ok] at h
    subst h
    dsimp only
    exact .clearProgram state
  · cases h
  · cases h

theorem evalSetDefine_ordered {body : List Byte} {s : State} {t : Taken} (h : evalSetDefine body s = .ok t) :
    Ordered s t.after := by
  simp only [evalSetDefine, bind_eq_ok, require_eq_ok, ok_eq_ok] at h
  obtain ⟨p, -, r, -, l, -, -, -, -, taken, rfl⟩ := h
  exact .storeSet l taken

theorem evalProgStart_ordered {body : List Byte} {s : State} {t : Taken} (h : evalProgStart body s = .ok t) :
    Ordered s t.after := by
  obtain ⟨p, -, h⟩ := bind_eq_ok.1 h
  dsimp only at h
  split at h
  · cases h
  · cases h
  · cases h
  · next state =>
    obtain ⟨_, ready, h⟩ := bind_eq_ok.1 h
    simp only [require_eq_ok, Bool.and_eq_true, decide_eq_true_eq] at ready
    rw [ok_eq_ok] at h
    subst h
    dsimp only
    exact .startProgram state ready.1 ready.2

theorem evalProgStop_ordered {body : List Byte} {s : State} {t : Taken} (h : evalProgStop body s = .ok t) :
    Ordered s t.after := by
  obtain ⟨p, -, h⟩ := bind_eq_ok.1 h
  split at h
  · cases h
  · cases h; exact .same (.refl s) (.refl s)
  · cases h; exact .same (.refl s) (.refl s)
  · next state =>
    rw [ok_eq_ok] at h
    subst h
    dsimp only
    exact .stopProgram state

theorem evalProgRestart_ordered {body : List Byte} {s : State} {t : Taken} (h : evalProgRestart body s = .ok t) :
    Ordered s t.after := by
  simp only [evalProgRestart, bind_eq_ok, require_eq_ok, ok_eq_ok] at h
  obtain ⟨p, -, -, running, rfl⟩ := h
  exact .restartProgram running

theorem evalProgQuery_ordered {body : List Byte} {s : State} {t : Taken} (h : evalProgQuery body s = .ok t) :
    Ordered s t.after := by
  obtain ⟨p, -, h⟩ := bind_eq_ok.1 h
  cases h; exact .same (.refl s) (.refl s)

theorem evalSourceSelect_ordered {body : List Byte} {s : State} {t : Taken} (h : evalSourceSelect body s = .ok t) :
    Ordered s t.after := by
  simp only [evalSourceSelect, bind_eq_ok, require_eq_ok, ok_eq_ok, Bool.and_eq_true] at h
  obtain ⟨p, -, r, -, -, ⟨running, set⟩, -, -, rfl⟩ := h
  dsimp only
  split
  · exact .selectCurrent running set ‹_›
  · exact .beginSelect running

theorem evalFailoverConfig_ordered {body : List Byte} {s : State} {t : Taken} (h : evalFailoverConfig body s = .ok t) :
    Ordered s t.after := by
  simp only [evalFailoverConfig, bind_eq_ok, ok_eq_ok] at h
  obtain ⟨p, -, auto, -, reset, -, -, -, rfl⟩ := h
  exact .storeFailover auto _ reset

theorem evalLoudConfig_ordered {body : List Byte} {s : State} {t : Taken} (h : evalLoudConfig body s = .ok t) :
    Ordered s t.after := by
  simp only [evalLoudConfig, bind_eq_ok, enumField_eq_ok, ok_eq_ok] at h
  obtain ⟨p, -, mode, -, link, legal, -, -, rfl⟩ := h
  exact .storeLoud mode body link (linkOfCode_le legal)

theorem evalLoudQuery_ordered {body : List Byte} {s : State} {t : Taken} (h : evalLoudQuery body s = .ok t) :
    Ordered s t.after := by
  obtain ⟨p, -, h⟩ := bind_eq_ok.1 h
  cases h; exact .same (.refl s) (.refl s)

theorem evalLoudRestart_ordered {body : List Byte} {s : State} {t : Taken} (h : evalLoudRestart body s = .ok t) :
    Ordered s t.after := by
  simp only [evalLoudRestart, bind_eq_ok, ok_eq_ok] at h
  obtain ⟨p, -, -, -, rfl⟩ := h
  exact .restartMeasurement p s

theorem evalDelayReserve_ordered {body : List Byte} {s : State} {t : Taken} (h : evalDelayReserve body s = .ok t) :
    Ordered s t.after := by
  simp only [evalDelayReserve, bind_eq_ok, require_eq_ok, ok_eq_ok, beq_iff_eq, decide_eq_true_eq] at h
  obtain ⟨p, -, -, state, -, room, rfl⟩ := h
  exact .rebuildChain _ state room

theorem evalDelayTarget_ordered {body : List Byte} {s : State} {t : Taken} (h : evalDelayTarget body s = .ok t) :
    Ordered s t.after := by
  simp only [evalDelayTarget, bind_eq_ok, ok_eq_ok] at h
  obtain ⟨p, -, n, -, -, -, rfl⟩ := h
  exact .storeTarget p _ _ n s

theorem evalDelayQuery_ordered {body : List Byte} {s : State} {t : Taken} (h : evalDelayQuery body s = .ok t) :
    Ordered s t.after := by
  obtain ⟨p, -, h⟩ := bind_eq_ok.1 h
  cases h; exact .same (.refl s) (.refl s)

theorem evalPoolQuery_ordered {body : List Byte} {s : State} {t : Taken} (h : evalPoolQuery body s = .ok t) :
    Ordered s t.after := by
  cases h; exact .same (.refl s) (.refl s)

theorem evalAlarmConfig_ordered {body : List Byte} {s : State} {t : Taken} (h : evalAlarmConfig body s = .ok t) :
    Ordered s t.after := by
  simp only [evalAlarmConfig, bind_eq_ok, require_eq_ok, ok_eq_ok, Bool.or_eq_true, beq_iff_eq] at h
  obtain ⟨e, -, sev, -, act, -, -, legal, rfl⟩ := h
  refine .storeEntryConfig _ (fun failover => ?_) ?_ ?_
  · exact legal.resolve_left fun none => by cases none.symm.trans failover
  · exact contField_toNat_le 0 255 _
  · exact contField_toNat_le 0 255 _

theorem evalAlarmQuery_ordered {body : List Byte} {s : State} {t : Taken} (h : evalAlarmQuery body s = .ok t) :
    Ordered s t.after := by
  obtain ⟨p, -, h⟩ := bind_eq_ok.1 h
  cases h; exact .same (.refl s) (.refl s)

theorem evalAlarmAck_ordered {body : List Byte} {s : State} {t : Taken} (h : evalAlarmAck body s = .ok t) :
    Ordered s t.after := by
  obtain ⟨es, -, h⟩ := bind_eq_ok.1 h
  cases h; exact .acknowledge es s

theorem evalAlarmScan_ordered {body : List Byte} {s : State} {t : Taken} (h : evalAlarmScan body s = .ok t) :
    Ordered s t.after := by
  obtain ⟨p, -, h⟩ := bind_eq_ok.1 h
  cases h; exact .same (.refl s) (.refl s)

/-- A message of a kind that passes its own tests leaves an effect of `Ordered`. -/
theorem evalKind_ordered {k : Kind} {b : Bool} {body : List Byte} {s : State} {t : Taken}
    (h : evalKind k b body s = .ok t) : Ordered s t.after := by
  cases k with
  | ident => exact evalIdent_ordered (body := body) h
  | restart => exact evalRestart_ordered (body := body) h
  | linkStats => exact evalLinkStats_ordered h
  | notices => exact evalNotices_ordered h
  | feedConfig => exact evalFeedConfig_ordered h
  | feedQuery => exact evalFeedQuery_ordered h
  | progDefine => exact evalProgDefine_ordered h
  | progClear => exact evalProgClear_ordered h
  | setDefine => exact evalSetDefine_ordered h
  | progStart => exact evalProgStart_ordered h
  | progStop => exact evalProgStop_ordered h
  | progRestart => exact evalProgRestart_ordered h
  | progQuery => exact evalProgQuery_ordered h
  | sourceSelect => exact evalSourceSelect_ordered h
  | failoverConfig => exact evalFailoverConfig_ordered h
  | loudConfig => exact evalLoudConfig_ordered h
  | loudQuery => exact evalLoudQuery_ordered h
  | loudRestart => exact evalLoudRestart_ordered h
  | delayReserve => exact evalDelayReserve_ordered h
  | delayTarget => exact evalDelayTarget_ordered h
  | delayQuery => exact evalDelayQuery_ordered h
  | poolQuery => exact evalPoolQuery_ordered (body := body) h
  | alarmConfig => exact evalAlarmConfig_ordered h
  | alarmQuery => exact evalAlarmQuery_ordered h
  | alarmAck => exact evalAlarmAck_ordered h
  | alarmScan => exact evalAlarmScan_ordered h

theorem carriedOut_works {r : Except Status Taken} {check : Bool} {s : State}
    (h : ∀ t, r = .ok t → Works s t.after) : Works s (carriedOut r check s) := by
  unfold carriedOut
  split
  · exact (SameUnit.refl s).works
  · split
    · exact (SameUnit.refl s).works
    · exact h _ rfl

/-- A message of a kind, however it is taken (R149 to R152). -/
theorem deliver_works (k : Kind) (b : Bool) (m : Msg) (s : State) : Works s (deliver k (evalKind k b) m s) := by
  have judged (t : Taken) (h : judge k (evalKind k b) m s = .ok t) : Works s t.after := by
    unfold judge at h
    split at h
    · cases h
    · split at h
      · exact (evalKind_ordered h).works
      · cases h
  unfold deliver
  dsimp only
  split
  · exact (SameUnit.countOverruns _ s).works
  · split
    · split
      · exact (SameUnit.toHunt s).works
      · exact (carriedOut_works judged).after (.toHunt _)
    · exact (carriedOut_works judged).after (.beginReply ..)

theorem deliverBadKind_sameUnit (kb : Byte) (m : Msg) (s : State) : SameUnit s (deliverBadKind kb m s) := by
  unfold deliverBadKind
  split
  · exact .countOverruns ..
  · split
    · exact .toHunt s
    · exact .beginReply ..

theorem acceptFrame_works (s : State) : Works s (acceptFrame s) := by
  unfold acceptFrame
  dsimp only
  split
  · exact (deliverBadKind_sameUnit ..).works
  · exact deliver_works ..

/-- A byte changes the receiver, and where it completes a frame the frame's message is taken (R147 to R149). -/
theorem takeByte_works (b : Byte) (s : State) : Works s (takeByte b s) := by
  have rx (r : Receiver) : Works s (s.withRx r) := (SameUnit.withRx s r).works
  unfold takeByte
  dsimp only
  split
  · split
    · exact rx _
    · exact (SameUnit.refl s).works
  · exact rx _
  · exact rx _
  · exact rx _
  · exact rx _
  · split
    · exact (acceptFrame_works _).before (.withRx s _)
    · exact rx _
  · exact rx _
  · exact (SameUnit.countOverruns 1 s).works

/-! ## Commands and steps -/

theorem onUnit_works {f : State → State} {s t : State} (h : onUnit f s = .next t) (w : Works s (f s)) : Works s t := by
  obtain ⟨-, rfl⟩ | ⟨-, rfl⟩ := onUnit_next h
  · exact (SameUnit.refl t).works
  · exact w.after (.judgePins _)

theorem message_of_kind {c : Instr} {k : Kind} (kind : c.kind = some k) : ∃ m, c.message = some m := by
  cases c with
  | _ => simp [Instr.kind, Instr.message] at kind ⊢

/-- A command of a message kind takes that message. -/
theorem exec_message {c : Instr} {k : Kind} {m : Msg} (kind : c.kind = some k) (message : c.message = some m) (s : State) :
    exec c s = onUnit (deliver k (evalKind k (isBroadcast m s)) m) s := by
  cases c with
  | _ => cases kind <;> cases message <;> rfl

/-- A command without a kind is an event, or a frame of a bad kind. -/
theorem exec_event_works {c : Instr} {s t : State} (kind : c.kind = none) (h : exec c s = .next t) : Works s t := by
  cases c with
  | badKindFrame k m =>
    refine onUnit_works (f := fun t => if (readKind k).isSome then t else deliverBadKind k m t) h ?_
    split
    · exact (SameUnit.refl s).works
    · exact (deliverBadKind_sameUnit ..).works
  | frameEdge f first => exact onUnit_works h (Work.frameEdge ..).works
  | subframeJudged f w => exact onUnit_works h (Work.subframeReceived ..).works
  | feedLossTimeout f first => exact onUnit_works h (.onlyIf (.declareLoss first))
  | outputSample => exact onUnit_works h (Work.outputSample s).works
  | startFadeEnd p => exact onUnit_works h (.onlyIf fun _ => .endStartFade ..)
  | stopFadeEnd p =>
    refine onUnit_works h (.onlyIf fun due => .endStopFade ?_)
    simp only [stopFadeIsDue, Bool.and_eq_true, beq_iff_eq] at due
    exact due.1
  | swapSwitch p =>
    refine onUnit_works h (.onlyIf fun due => .swapSwitch ?_)
    simp only [switchIsDue, Bool.and_eq_true] at due
    exact due.1.1
  | swapEnd p => exact onUnit_works h (.onlyIf fun _ => .endSwap ..)
  | blockClose o => exact onUnit_works h (Work.blockClose ..).works
  | silenceTimeout p => exact onUnit_works h (.onlyIf .silenceTimeout)
  | returnDue p => exact onUnit_works h (Work.beginReturn ..).works
  | slewStepComplete p => exact onUnit_works h (.onlyIf .slewComplete)
  | cutJump p => exact onUnit_works h (.onlyIf fun _ => .cutJump ..)
  | cutInEnd p => exact onUnit_works h (.onlyIf fun _ => .cutInEnd ..)
  | alarmRaiseDelayExpiry e => exact onUnit_works h (Work.expireRaise ..).works
  | alarmClearDelayExpiry e => exact onUnit_works h (Work.expireClear ..).works
  | houseRefEdge => exact onUnit_works h (Work.refEdge s).works
  | houseRefLossTimeout => exact onUnit_works h (.onlyIf fun _ => .loseRef s)
  | powerOnReset u b => cases h; exact (Work.leaveReset u b s).works.after (.judgePins _)
  | unitRestart => exact onUnit_works h (Work.unitRestart s).works
  | byteReceived b => exact onUnit_works h (takeByte_works b s)
  | receiverGapTimeout =>
    refine onUnit_works h ?_
    split
    · exact (SameUnit.withRx ..).works
    · exact (SameUnit.refl s).works
  | replySent =>
    refine onUnit_works h ?_
    split
    · exact SameUnit.works ⟨rfl, rfl, rfl, rfl, rfl, rfl, le_rfl⟩
    · exact (SameUnit.refl s).works
  | powerOnResetStart => cases h; exact SameUnit.works ⟨rfl, rfl, rfl, rfl, rfl, rfl, le_rfl⟩
  | _ => cases kind

/-- Every command is an effect of `Work`. -/
theorem exec_works {c : Instr} {s t : State} (h : exec c s = .next t) : Works s t := by
  cases kind : c.kind with
  | none => exact exec_event_works kind h
  | some k =>
    obtain ⟨m, message⟩ := message_of_kind kind
    rw [exec_message kind message] at h
    exact onUnit_works h (deliver_works ..)

/-- Every step is an effect of `Work`. -/
theorem step_works {s t : State} (h : step s = .next t) : Works s t := by
  unfold step at h
  split at h
  · next c rest _ => exact .before (t := { s with pending := rest }) ⟨rfl, rfl, rfl, rfl, rfl, rfl, le_rfl⟩ (exec_works h)
  · obtain rfl | ⟨c, h⟩ | rfl := idle_next h
    · exact (SameUnit.refl t).works
    · exact .before (t := { s with freeCount := s.freeCount + 1 }) ⟨rfl, rfl, rfl, rfl, rfl, rfl, le_rfl⟩ (exec_works h)
    · exact (Work.passTicks 1 s).works

/-- A law that reads those records alone holds after a step where every effect of `Work` keeps it. -/
theorem step_keeps {P : State → Prop} (same : ∀ s t, SameUnit s t → P s → P t) (work : ∀ s t, Work s t → P s → P t)
    {s t : State} (law : P s) (h : step s = .next t) : P t := by
  obtain ⟨u, v, su, w, vt⟩ := step_works h
  exact same v t vt (work u v w (same s u su law))

end Sys2Proof.Machine
end

section
/-! PROOFS. The work of one feed as a sequence of few kinds of change (`FeedSteps`), and the work that leaves every
program's run as it stands (`RunsSame`). -/
namespace Sys2Proof.Machine

/-! ## The work of one feed -/

/-- What the work of feed f is made of: changes of its port and converter that keep its health, its enable and its class;
its conditions; its converter changed with what follows from it; and its health judged. -/
inductive FeedSteps (f : FeedId) (s : State) : State → Prop
  | refl : FeedSteps f s s
  | record {t : State} (x : Feed) (healthy : x.healthy = (t.feed f).healthy)
      (enable : x.port.enable = (t.feed f).port.enable) (cls : x.conv.cls = (t.feed f).conv.cls) (h : FeedSteps f s t) :
      FeedSteps f s (t.setFeed f x)
  | cond {t : State} (k : FeedCond) (v : Bool) (h : FeedSteps f s t) : FeedSteps f s (setFeedCond f k v t)
  | change {t : State} (c : Converter) (h : FeedSteps f s t) : FeedSteps f s (changeConverter f c t)
  | health {t : State} (h : FeedSteps f s t) : FeedSteps f s (judgeHealth f t)

namespace FeedSteps

variable {f : FeedId} {s t : State}

/-- A law that every kind of change keeps is kept by the work of a feed. -/
theorem keeps {P : State → Prop} (h : FeedSteps f s t) (law : P s)
    (record : ∀ (u : State) (x : Feed), x.healthy = (u.feed f).healthy → x.port.enable = (u.feed f).port.enable →
      x.conv.cls = (u.feed f).conv.cls → P u → P (u.setFeed f x))
    (cond : ∀ u k v, P u → P (setFeedCond f k v u)) (change : ∀ u c, P u → P (changeConverter f c u))
    (health : ∀ u, P u → P (judgeHealth f u)) : P t := by
  induction h with
  | refl => exact law
  | record x healthy enable cls _ ih => exact record _ x healthy enable cls ih
  | cond k v _ ih => exact cond _ k v ih
  | change c _ ih => exact change _ c ih
  | health _ ih => exact health _ ih

theorem port (g : Port → Port) (enable : ∀ q, (g q).enable = q.enable) (h : FeedSteps f s t) :
    FeedSteps f s (t.onPort f g) := h.record _ rfl (enable _) rfl

theorem keepConverter {r : Converter × Bool} (cls : r.1.cls = (t.feed f).conv.cls) (h : FeedSteps f s t) :
    FeedSteps f s (keepConverter f r t) := by
  have kept := h.record (x := { t.feed f with conv := r.1 }) rfl rfl cls
  unfold Machine.keepConverter
  dsimp only
  split
  · exact kept.cond _ _
  · exact kept

theorem takeSubframeA (w : Option (BitVec 32)) (h : FeedSteps f s t) : FeedSteps f s (takeSubframeA f w t) :=
  .cond _ _ (.port _ (fun _ => rfl) h)

theorem handFrame (fr : InFrame) (h : FeedSteps f s t) : FeedSteps f s (handFrame f fr t) :=
  h.keepConverter (by rw [Converter.takeFrame_kept])

theorem takeSubframeB (a : Sample) (w : Option (BitVec 32)) (h : FeedSteps f s t) :
    FeedSteps f s (takeSubframeB f a w t) :=
  .handFrame _ (.cond _ _ (.port _ (fun _ => rfl) h))

theorem subframeReceived (w : BitVec 32) (h : FeedSteps f s t) : FeedSteps f s (subframeReceived f w t) := by
  unfold Machine.subframeReceived
  split
  · split
    · exact h
    · exact h.takeSubframeA _
    · exact h.takeSubframeB _ _
    · exact h
  · exact h

theorem endFrame (h : FeedSteps f s t) : FeedSteps f s (endFrame f t) := by
  unfold Machine.endFrame
  split
  · exact h
  · dsimp only
    split
    · exact (h.takeSubframeA _).takeSubframeB _ _
    · exact h.takeSubframeA _
  · exact h.takeSubframeB _ _
  · exact h

theorem yieldSpan (h : FeedSteps f s t) : FeedSteps f s (yieldSpan f t) :=
  .change _ (.cond _ _ (.port _ (fun _ => rfl) h))

theorem advanceSpan (h : FeedSteps f s t) : FeedSteps f s (advanceSpan f t) := by
  unfold Machine.advanceSpan
  dsimp only
  split
  · exact h.port _ fun _ => rfl
  · split
    · exact h.yieldSpan
    · exact h.port _ fun _ => rfl

theorem frameEdge (first : Bool) (h : FeedSteps f s t) : FeedSteps f s (frameEdge f first t) := by
  have opened {u : State} (h : FeedSteps f s u) :
      FeedSteps f s ((restartLossTimer f u).onPort f fun q => { q with frame := .opened }) := by
    unfold restartLossTimer
    exact .port _ (fun _ => rfl) (.port _ (fun _ => rfl) h)
  unfold Machine.frameEdge
  split
  · have lost : FeedSteps f s (endLoss f t) := h.cond _ _
    dsimp only
    split
    · exact opened lost.endFrame.advanceSpan
    · exact opened lost.advanceSpan.endFrame
  · exact h

theorem loseConverter (h : FeedSteps f s t) : FeedSteps f s (loseConverter f t) := by
  unfold Machine.loseConverter
  dsimp only
  split
  · exact h.change _
  · exact h

theorem declareLoss (first : Bool) (h : FeedSteps f s t) : FeedSteps f s (declareLoss f first t) := by
  have cleared : FeedSteps f s (clearLostPort f t) := h.port _ fun _ => rfl
  unfold Machine.declareLoss
  dsimp only
  split
  · exact .loseConverter (.cond _ _ (.cond _ _ (.cond _ _ cleared)))
  · exact .cond _ _ (.cond _ _ (.cond _ _ cleared.loseConverter))

theorem clearPortConds (h : FeedSteps f s t) : FeedSteps f s (clearPortConds f t) := by
  unfold Machine.clearPortConds
  exact .cond _ _ (.cond _ _ (.cond _ _ h))

theorem enablePort (h : FeedSteps f s t) : FeedSteps f s (enablePort f t) := by
  unfold Machine.enablePort
  exact .health (.change _ (.clearPortConds (.port _ (fun _ => rfl) h)))

theorem disablePort (h : FeedSteps f s t) : FeedSteps f s (disablePort f t) := by
  unfold Machine.disablePort
  exact .health (.change _ (.cond _ _ (.cond _ _ (.clearPortConds (.port _ (fun _ => rfl) h)))))

end FeedSteps

/-- The four settings of FEED_CONFIG stored in the port, before enable is acted on (R3). -/
def configurePort (f : FeedId) (en : Bool) (ex : Option RateClass) (par val : Bool) (s : State) : State :=
  s.onPort f fun q => { q with enable := en, expected := ex, parityCheck := par, honourValidity := val }

/-- FEED_CONFIG stores its settings and then acts on a change of enable (R3 to R6). -/
theorem storeFeedConfig_eq (f : FeedId) (en : Bool) (ex : Option RateClass) (par val : Bool) (s : State) :
    storeFeedConfig f en ex par val s =
      if (s.feed f).port.enable = en then configurePort f en ex par val s
      else if en then enablePort f (configurePort f en ex par val s)
      else disablePort f (configurePort f en ex par val s) := by
  unfold storeFeedConfig
  cases (s.feed f).port.enable <;> cases en <;> simp [configurePort]

theorem storeFeedConfig_steps (f : FeedId) (en : Bool) (ex : Option RateClass) (par val : Bool) (s : State) :
    FeedSteps f (configurePort f en ex par val s) (storeFeedConfig f en ex par val s) := by
  rw [storeFeedConfig_eq]
  split
  · exact .refl
  · split
    · exact FeedSteps.refl.enablePort
    · exact FeedSteps.refl.disablePort

/-! ## What leaves every run as it stands -/

/-- Two records of a program agree on its state, its definition, its stack and its pages. -/
structure Program.SameRun (g h : Program) : Prop where
  state : h.state = g.state
  slots : h.slots = g.slots
  sets : h.sets = g.sets
  stack : h.stack = g.stack
  reserve : h.delay.reserve = g.delay.reserve
  chain : h.delay.chain = g.delay.chain

theorem Program.SameRun.refl (g : Program) : g.SameRun g := ⟨rfl, rfl, rfl, rfl, rfl, rfl⟩

theorem Program.SameRun.trans {a b c : Program} (h : a.SameRun b) (g : b.SameRun c) : a.SameRun c :=
  ⟨g.state.trans h.state, g.slots.trans h.slots, g.sets.trans h.sets, g.stack.trans h.stack,
    g.reserve.trans h.reserve, g.chain.trans h.chain⟩

theorem Program.Kept.sameRun {g h : Program} (k : g.Kept h) : g.SameRun h := by
  obtain ⟨e, d⟩ := k
  unfold DelayRec.Kept at d
  exact ⟨by rw [e], by rw [e], by rw [e], by rw [e], by rw [d], by rw [d]⟩

/-- An output sample moves the progress of a SLEW step and no other field of the operation. -/
theorem DelayRec.stepOn_eq (d : DelayRec) : d.stepOn = { d with progress := d.stepOn.progress } := by
  unfold DelayRec.stepOn; split <;> rfl

theorem Program.sample_sameRun (frames : List (Rat × Rat)) (trims : List Nat) (m : Memory) (g : Program) :
    g.SameRun (g.sample frames trims m).1 := by
  refine ⟨rfl, rfl, rfl, rfl, ?_, ?_⟩ <;>
  · unfold Program.sample DelayRec.advance
    dsimp only
    rw [DelayRec.stepOn_eq]
    rfl

/-- Two states agree on every program's run and on the free list. -/
structure RunsSame (s t : State) : Prop where
  pages : t.freePages = s.freePages
  prog : ∀ p, (s.prog p).SameRun (t.prog p)

namespace RunsSame

@[refl] theorem refl (s : State) : RunsSame s s := ⟨rfl, fun _ => .refl _⟩

theorem trans {a b c : State} (h : RunsSame a b) (g : RunsSame b c) : RunsSame a c :=
  ⟨g.pages.trans h.pages, fun p => (h.prog p).trans (g.prog p)⟩

theorem forEach {α : Type} {f : α → State → State} (h : ∀ x s, RunsSame s (f x s)) (l : List α) (s : State) :
    RunsSame s (forEach l f s) := forEach_relation .refl .trans h l s

theorem ofProgs {s t : State} (pages : t.freePages = s.freePages) (progs : t.progs = s.progs) : RunsSame s t :=
  ⟨pages, fun p => by rw [State.prog_congr progs]; exact .refl _⟩

theorem ofFeed {f : FeedId} {s t : State} (h : FeedEffect f s t) : RunsSame s t :=
  ⟨h.quiet.freePages, fun p => (h.prog p).sameRun⟩

theorem ofAlarm {s t : State} (h : AlarmEffect s t) : RunsSame s t := ofFeed (FeedEffect.ofAlarm (f := 0) h)

theorem setProg {p : ProgId} {s : State} {x : Program} (h : (s.prog p).SameRun x) : RunsSame s (s.setProg p x) := by
  refine ⟨rfl, fun q => ?_⟩
  by_cases hq : q = p
  · subst hq; rw [State.setProg_prog_self]; exact h
  · rw [State.setProg_prog_ne hq]; exact .refl _

theorem onProg {p : ProgId} {g : Program → Program} (h : ∀ x, Program.SameRun x (g x)) (s : State) :
    RunsSame s (s.onProg p g) := setProg (h _)

theorem setFeed (s : State) (f : FeedId) (x : Feed) : RunsSame s (s.setFeed f x) := ofProgs rfl rfl

theorem setCond (e : EntryId) (v : Bool) (s : State) : RunsSame s (setCond e v s) := ofFeed (.setCond 0 e v s)

theorem setFeedCond (f : FeedId) (k : FeedCond) (v : Bool) (s : State) : RunsSame s (setFeedCond f k v s) := setCond ..

theorem setProgCond (p : ProgId) (k : ProgCond) (v : Bool) (s : State) : RunsSame s (setProgCond p k v s) := setCond ..

theorem judgeNoSource (p : ProgId) (s : State) : RunsSame s (judgeNoSource p s) := ofAlarm (.judgeNoSource p s)

theorem judgeOnBackup (p : ProgId) (s : State) : RunsSame s (judgeOnBackup p s) := setProgCond ..

theorem pushNotice (k : NoticeKind) (src : Source) (d : List Byte) (s : State) : RunsSame s (pushNotice k src d s) :=
  ofAlarm (.pushNotice k src d s)

theorem eligibilityEvent (p : ProgId) (s : State) : RunsSame s (eligibilityEvent p s) := ofAlarm (.eligibilityEvent p s)

theorem setMark (p : ProgId) (r : Rank) (v : Bool) (s : State) : RunsSame s (setMark p r v s) :=
  (onProg (p := p) (g := (·.withMark r v)) (fun _ => ⟨rfl, rfl, rfl, rfl, rfl, rfl⟩) s).trans (.eligibilityEvent ..)

theorem thenCond {s t : State} (h : RunsSame s t) (p : ProgId) (k : ProgCond) (v : Bool) :
    RunsSame s (Machine.setProgCond p k v t) := h.trans (.setProgCond p k v t)

theorem judgeLatency (p : ProgId) (s : State) : RunsSame s (judgeLatency p s) := by
  unfold Machine.judgeLatency
  exact .thenCond (.setProgCond ..) _ _ _

theorem recomputeDelay (p : ProgId) (s : State) : RunsSame s (recomputeDelay p s) := ofFeed (.recomputeDelay 0 p s)

theorem startDelay (p : ProgId) (s : State) : RunsSame s (startDelay p s) := by
  unfold Machine.startDelay
  have started (g : Program) (t : Nat) : g.SameRun { g with delay := { g.delay.flush.noOp with dtgt := t, dcur := t } } :=
    ⟨rfl, rfl, rfl, rfl, rfl, rfl⟩
  exact .trans (judgeLatency p s) (setProg (started _ _))

theorem gain {s t : State} (h : GainEffect s t) : RunsSame s t :=
  ⟨by rw [h.rest], fun p => by rw [h.prog p]; exact ⟨rfl, rfl, rfl, rfl, rfl, rfl⟩⟩

theorem membershipEvent (p : ProgId) (s : State) : RunsSame s (membershipEvent p s) := gain (.membershipEvent p s)

theorem feedSteps {f : FeedId} {s t : State} (h : FeedSteps f s t) : RunsSame s t :=
  h.keeps (.refl s) (fun _ _ _ _ _ r => r.trans (.setFeed ..)) (fun _ _ _ r => r.trans (.setFeedCond ..))
    (fun _ _ r => r.trans (ofFeed (.changeConverter ..))) (fun _ r => r.trans (ofAlarm (.judgeHealth ..)))

theorem keepConverter (f : FeedId) (r : Converter × Bool) (s : State) : RunsSame s (keepConverter f r s) :=
  ofFeed (.keepConverter f r s)

theorem clock (s : State) (m : Monitor) (x : Receiver) (n : Nat) : RunsSame s { s with monitor := m, rx := x, tick := n } :=
  ofProgs rfl rfl

theorem positions (s : State) (m n : Nat) : RunsSame s { s with tick := m, sampleInBlock := n } := ofProgs rfl rfl

theorem passTicks (n : Nat) (s : State) : RunsSame s (passTicks n s) := by
  have ports := forEach (f := fun f t => t.onPort f (Port.pass n)) (fun _ _ => setFeed ..) allFeeds s
  exact ports.trans (clock ..)

theorem clearMeasureConds (p : ProgId) (s : State) : RunsSame s (clearMeasureConds p s) := by
  unfold Machine.clearMeasureConds
  exact .thenCond (.thenCond (.thenCond (.thenCond (.setProgCond ..) _ _ _) _ _ _) _ _ _) _ _ _

theorem clearRunConds (p : ProgId) (s : State) : RunsSame s (clearRunConds p s) := by
  unfold Machine.clearRunConds
  exact .trans (.thenCond (.setProgCond ..) _ _ _) (clearMeasureConds ..)

/-! ### The output sample -/

theorem programSample (frames : List (Rat × Rat)) (p : ProgId) (s : State) : RunsSame s (programSample frames p s) := by
  unfold Machine.programSample
  dsimp only
  split
  · exact .trans (setProg (Program.sample_sameRun ..)) (ofProgs rfl rfl)
  · exact ofProgs rfl rfl

theorem outputSample (s : State) : RunsSame s (outputSample s) := by
  unfold Machine.outputSample
  dsimp only
  exact .trans (.trans (.trans (passTicks _ s) (forEach (fun _ _ => keepConverter ..) _ _))
    (forEach (fun _ _ => programSample ..) _ _)) (positions ..)

/-! ### The block close -/

theorem loud {p : ProgId} {s : State} {g : Program → Loudness} : RunsSame s (s.onProg p fun x => { x with loud := g x }) :=
  onProg (g := fun x => { x with loud := g x }) (fun _ => ⟨rfl, rfl, rfl, rfl, rfl, rfl⟩) s

theorem thenLoud {p : ProgId} {s t : State} {g : Program → Loudness} (h : RunsSame s t) :
    RunsSame s (t.onProg p fun x => { x with loud := g x }) := h.trans loud

theorem activateSettings (p : ProgId) (s : State) : RunsSame s (activateSettings p s) := by
  unfold Machine.activateSettings
  dsimp only
  split
  · exact .thenCond loud _ _ _
  · exact loud

theorem silenceStep (p : ProgId) (s : State) : RunsSame s (silenceStep p s) := by
  unfold Machine.silenceStep
  dsimp only
  split
  · exact .refl s
  · split
    · exact .refl s
    · split
      · exact .thenCond loud _ _ _
      · split
        · exact .thenCond loud _ _ _
        · exact loud

theorem closeController (p : ProgId) (s : State) : RunsSame s (closeController p s) := by
  have unmeasured (t : State) : RunsSame t (closeUnmeasured p t) := by
    refine onProg (fun x => ?_) t
    split
    · exact ⟨rfl, rfl, rfl, rfl, rfl, rfl⟩
    · exact .refl x
  unfold Machine.closeController
  dsimp only
  split
  · unfold closeMeasured
    exact .thenLoud (.trans (.thenLoud (activateSettings p s)) (silenceStep p _))
  · exact (activateSettings p s).trans (unmeasured _)

theorem judgeLevels (formed : Bool) (p : ProgId) (s : State) : RunsSame s (judgeLevels formed p s) := by
  have ceiling : RunsSame s (judgeCeiling p s) := by
    unfold Machine.judgeCeiling
    exact .thenCond loud _ _ _
  unfold Machine.judgeLevels
  dsimp only
  split
  · split
    · refine ceiling.trans ?_
      unfold judgeOverLevel
      dsimp only
      split
      · exact .refl _
      · exact setProgCond ..
    · exact ceiling
  · exact .refl s

theorem closeLevels (formed : ProgId → Bool) (s : State) : RunsSame s (closeLevels formed s) :=
  (forEach (f := formAtClose (appliedGainOf s)) (fun _ _ => loud) allProgs s).trans
    (forEach (fun _ _ => judgeLevels ..) allProgs _)

theorem startReturn (g : Program) : g.SameRun g.startReturn := ⟨rfl, rfl, rfl, rfl, rfl, rfl⟩

theorem countReturn (p : ProgId) (s : State) : RunsSame s (countReturn p s) := by
  unfold Machine.countReturn
  dsimp only
  split
  · split <;> refine onProg ?_ s <;> exact fun _ => ⟨rfl, rfl, rfl, rfl, rfl, rfl⟩
  · refine onProg ?_ s
    exact fun _ => ⟨rfl, rfl, rfl, rfl, rfl, rfl⟩

theorem beginReturn (p : ProgId) (s : State) : RunsSame s (beginReturn p s) := by
  unfold Machine.beginReturn
  split
  · exact onProg startReturn s
  · exact .refl s

theorem countTimer (e : EntryId) (s : State) : RunsSame s (countTimer e s) := by
  unfold Machine.countTimer
  dsimp only
  split <;> exact ofProgs rfl rfl

theorem expireRaise (e : EntryId) (s : State) : RunsSame s (expireRaise e s) := ofAlarm (.expireRaise e s)

theorem expireClear (e : EntryId) (s : State) : RunsSame s (expireClear e s) := ofAlarm (.expireClear e s)

theorem closeWork (o : CloseOrder) (formed : ProgId → Bool) (w : CloseWork) (s : State) :
    RunsSame s (closeWork o formed w s) := by
  cases w with
  | slip f => exact setFeedCond ..
  | measure p => exact closeController p s
  | levels => exact closeLevels formed s
  | alarm e =>
    unfold Machine.closeWork closeAlarm
    dsimp only
    split
    · exact countTimer e s
    · exact (countTimer e s).trans ((expireRaise ..).trans (expireClear ..))
  | returns p =>
    unfold Machine.closeWork closeReturn
    dsimp only
    split
    · exact countReturn p s
    · exact (countReturn p s).trans (beginReturn ..)

theorem blockClose (o : CloseOrder) (s : State) : RunsSame s (blockClose o s) :=
  trans (b := { s with blockCounter := s.blockCounter + 1, sampleInBlock := 0 }) (ofProgs rfl rfl)
    (forEach (fun w t => closeWork o _ w t) _ _)

end RunsSame

end Sys2Proof.Machine
end

section
/-! PROOFS. The page pool (R113 to R115) and the source stack (R64): what changes a program's run or its pages, and that
every step keeps both laws. -/
namespace Sys2Proof.Machine

theorem RunsSame.settleNotice (p : ProgId) (s : State) : RunsSame s (settleNotice p s) := .pushNotice ..

theorem RunsSame.monitored (s : State) (m : Monitor) : RunsSame s { s with monitor := m } := .ofProgs rfl rfl

/-! ## Changes of a program's run -/

/-- A program's state and stack changed, and nothing else of it. -/
def setRun (p : ProgId) (st : ProgState) (l : List Rank) (s : State) : State :=
  s.onProg p fun g => { g with state := st, stack := l }

theorem setRun_prog_self (p : ProgId) (st : ProgState) (l : List Rank) (s : State) :
    (setRun p st l s).prog p = { s.prog p with state := st, stack := l } := by
  simp [setRun]

theorem setRun_prog_ne {p q : ProgId} (h : q ≠ p) (st : ProgState) (l : List Rank) (s : State) :
    (setRun p st l s).prog q = s.prog q := State.setProg_prog_ne h s _

theorem RunsSame.setRun {p : ProgId} {s : State} {g : Program → Program} (st : ProgState) (l : List Rank)
    (h : Program.SameRun { s.prog p with state := st, stack := l } (g (s.prog p))) :
    RunsSame (setRun p st l s) (s.onProg p g) := by
  refine ⟨rfl, fun q => ?_⟩
  by_cases hq : q = p
  · subst hq
    rw [setRun_prog_self, State.onProg_eq, State.setProg_prog_self]
    exact h
  · rw [setRun_prog_ne hq, State.onProg_eq, State.setProg_prog_ne hq]
    exact .refl _

/-- The end of a stop fade leaves the program DEFINED with an empty stack (R54). -/
theorem endStopFade_run (p : ProgId) (s : State) : RunsSame (setRun p .defined [] s) (endStopFade p s) := by
  have ended (g : Program) : Program.SameRun { g with state := .defined, stack := [] } g.runEnded :=
    ⟨rfl, rfl, rfl, rfl, rfl, rfl⟩
  unfold endStopFade
  exact .trans (.trans (RunsSame.setRun _ _ (ended _)) (.clearRunConds ..)) (.pushNotice ..)

/-- The stack a PROG_STOP leaves (R53). -/
def Program.stoppedStack (g : Program) : List Rank := if g.swapping then g.currentRank.toList else g.stack

theorem stop_run (p : ProgId) (s : State) :
    RunsSame (setRun p .stopping (s.prog p).stoppedStack s) (membershipEvent p (s.onProg p Program.stopped)) := by
  have stopped (g : Program) : Program.SameRun { g with state := .stopping, stack := g.stoppedStack } g.stopped :=
    ⟨rfl, rfl, rfl, rfl, rfl, rfl⟩
  exact (RunsSame.setRun _ _ (stopped _)).trans (.membershipEvent ..)

/-- A start leaves the program RUNNING on the start rank alone (R51). -/
theorem startProgram_run (p : ProgId) (s : State) :
    RunsSame (setRun p .running [startRank s (s.prog p)] s) (startProgram p s) := by
  have started (g : Program) (r : Rank) : Program.SameRun { g with state := .running, stack := [r] } (g.started r) :=
    ⟨rfl, rfl, rfl, rfl, rfl, rfl⟩
  have snap (t : State) : RunsSame t (snapGain p t) := .loud
  unfold startProgram sourceChanged
  dsimp only
  refine .trans (.trans (.trans (.trans (.trans ?_ (.membershipEvent ..)) (snap _)) (.pushNotice ..))
    (.refl _)) (.judgeOnBackup ..)
  exact .thenCond (.trans (.trans (RunsSame.setRun _ _ (started _ _)) (.judgeNoSource ..)) (.startDelay ..)) _ _ _

theorem restartProgram_run (p : ProgId) (s : State) : RunsSame s (restartProgram p s) := by
  have rerun : RunsSame s (s.onProg p Program.rerun) := by
    refine .onProg ?_ s
    exact fun _ => ⟨rfl, rfl, rfl, rfl, rfl, rfl⟩
  unfold restartProgram
  exact .trans (.trans (.thenCond rerun _ _ _) (.startDelay ..)) (.membershipEvent ..)

/-- The current rank selected again stands alone on the stack (R78). -/
theorem selectCurrent_run (p : ProgId) (r : Rank) (s : State) :
    RunsSame (setRun p (s.prog p).state [r] s) (selectCurrent p r s) := by
  have alone (g : Program) :
      Program.SameRun { g with state := g.state, stack := [r] } ({ g with stack := [r] } : Program).zeroReturn :=
    ⟨rfl, rfl, rfl, rfl, rfl, rfl⟩
  exact .trans (RunsSame.setRun _ _ (alone _)) (.setMark ..)

theorem keepSet_run (p : ProgId) (c : SwapCause) (s : State) : RunsSame s (keepSet p c s) := by
  have fadeIn : RunsSame s (s.onProg p fun g => { g with swap := { g.swap with phase := .fadeIn, cause := some c } }) := by
    refine .onProg ?_ s
    exact fun _ => ⟨rfl, rfl, rfl, rfl, rfl, rfl⟩
  exact fadeIn.trans (.judgeNoSource ..)

/-- A SWITCH that changes the current set puts the new stack in place (R68). -/
theorem changeSet_run (p : ProgId) (l : List Rank) (c : SwapCause) (s : State) :
    RunsSame (setRun p (s.prog p).state l s) (changeSet p l c s) := by
  have switched (g : Program) : Program.SameRun { g with state := g.state, stack := l }
      ({ g with stack := l, swap := { g.swap with phase := .fadeIn, cause := some c } } : Program).zeroReturn.swapReset := by
    unfold Program.swapReset
    split <;> exact ⟨rfl, rfl, rfl, rfl, rfl, rfl⟩
  unfold changeSet sourceChanged
  dsimp only
  exact .trans (.trans (.trans (.trans (RunsSame.setRun _ _ (switched _)) (.recomputeDelay ..)) (.judgeOnBackup ..))
    (.judgeNoSource ..)) (.pushNotice ..)

/-- What a SWITCH does to the run of its program: the stack is kept, or it ends at an eligible rank (R66, R67). -/
inductive Switched (p : ProgId) (s : State) : State → Prop
  | kept {t : State} (run : RunsSame s t) : Switched p s t
  | moved {t : State} (l : List Rank) (some : l ≠ []) (distinct : (s.prog p).stack.Nodup → l.Nodup)
      (defined : ∀ r ∈ l, r ∈ (s.prog p).stack ∨ ((s.prog p).setAt r).isSome = true)
      (run : RunsSame (setRun p (s.prog p).state l s) t) : Switched p s t

theorem eligible_isSome {s : State} {g : Program} {r : Rank} (h : eligible s g r = true) : (g.setAt r).isSome = true := by
  unfold eligible rankHealthy at h
  cases e : g.setAt r <;> simp_all

theorem lowestEligible_eligible {s : State} {g : Program} {r : Rank} (h : lowestEligible s g = some r) :
    eligible s g r = true := List.find?_some h

theorem mem_reachRank {r x : Rank} {l : List Rank} (h : x ∈ reachRank r l) : x ∈ l ∨ x = r := by
  unfold reachRank at h
  simp only [List.mem_append, List.mem_singleton] at h
  exact h.imp_left fun h => (List.takeWhile_sublist _).subset h

theorem reachRank_nodup (r : Rank) {l : List Rank} (h : l.Nodup) : (reachRank r l).Nodup := by
  refine List.nodup_append.2 ⟨h.sublist (List.takeWhile_sublist _), List.nodup_singleton r, ?_⟩
  intro a ha b hb e
  subst e
  have stays := List.mem_takeWhile_imp ha
  rw [List.mem_singleton] at hb
  simp [hb] at stays

theorem failoverSwitch_run (p : ProgId) (c : SwapCause) (s : State) : Switched p s (failoverSwitch p c s) := by
  unfold failoverSwitch
  dsimp only
  split
  · exact .kept (keepSet_run ..)
  · split
    · exact .kept (keepSet_run ..)
    · next r least =>
      refine .moved _ (by simp [reachRank]) (reachRank_nodup r) (fun x hx => ?_) (changeSet_run ..)
      obtain hx | rfl := mem_reachRank hx
      · exact .inl hx
      · exact .inr (eligible_isSome (lowestEligible_eligible least))

theorem Switched.after {p : ProgId} {s t u : State} (h : RunsSame s t) (w : Switched p t u) : Switched p s u := by
  have own := h.prog p
  cases w with
  | kept run => exact .kept (h.trans run)
  | moved l some distinct defined run =>
    refine .moved l some (by rw [← own.stack]; exact distinct) (fun r hr => ?_) (.trans ?_ run)
    · unfold Program.setAt at *
      rw [← own.stack, ← own.sets]
      exact defined r hr
    · refine ⟨h.pages, fun q => ?_⟩
      by_cases hq : q = p
      · subst hq
        rw [setRun_prog_self, setRun_prog_self]
        exact ⟨own.state, own.slots, own.sets, rfl, own.reserve, own.chain⟩
      · rw [setRun_prog_ne hq, setRun_prog_ne hq]
        exact h.prog q

theorem swapSwitch_run (p : ProgId) (s : State) : Switched p s (swapSwitch p s) := by
  unfold swapSwitch
  split
  · unfold returnSwitch
    dsimp only
    split
    · next fit =>
      refine .moved _ (fun empty => ?_) (fun h => h.sublist (List.dropLast_sublist _))
        (fun r hr => .inl ((List.dropLast_sublist _).subset hr)) (changeSet_run ..)
      simp [returnEligible, Program.returnRank, empty] at fit
    · exact failoverSwitch_run ..
  · split
    · next r _ =>
      have marked := RunsSame.setMark p r false s
      unfold selectSwitch
      dsimp only
      split
      · next fit =>
        refine .after marked (.moved _ (by simp) (fun _ => List.nodup_singleton r) (fun x hx => ?_) (changeSet_run ..))
        rw [List.mem_singleton.1 hx]
        exact .inr (eligible_isSome fit)
      · exact .after marked (failoverSwitch_run ..)
    · exact failoverSwitch_run ..
  all_goals exact failoverSwitch_run ..

/-! ## Delay operations and swaps keep the run -/

/-- Where a SLEW step that has run its interval takes Dcur, under a ring bound (R121, R125; log 29). -/
def DelayRec.stepped (d : DelayRec) (bound : Int) : Nat :=
  match d.dir with
  | .up => min (d.dcur + 1) bound.toNat
  | .down => d.dcur - 1

/-- The delay record once Dcur has moved by the step. -/
def DelayRec.movedStep (d : DelayRec) (bound : Int) : DelayRec := { d with dcur := d.stepped bound, progress := 0 }

theorem slewComplete_eq (p : ProgId) (s : State) :
    slewComplete p s =
      if ((s.prog p).delay.movedStep (ringBound s (s.prog p))).distance = 0 then
        settleNotice p (s.setProg p
          { s.prog p with delay := ((s.prog p).delay.movedStep (ringBound s (s.prog p))).noOp })
      else s.setProg p
        { s.prog p with delay := ((s.prog p).delay.movedStep (ringBound s (s.prog p))).beginStep } := rfl

theorem slewComplete_run (p : ProgId) (s : State) : RunsSame s (slewComplete p s) := by
  have moved (g : Program) (d : DelayRec) (reserve : d.reserve = g.delay.reserve) (chain : d.chain = g.delay.chain) :
      g.SameRun { g with delay := d } := ⟨rfl, rfl, rfl, rfl, reserve, chain⟩
  rw [slewComplete_eq]
  split
  · refine .trans (.setProg ?_) (.settleNotice ..)
    exact moved _ _ rfl rfl
  · exact .setProg (moved _ _ rfl rfl)

theorem cutJump_run (p : ProgId) (s : State) : RunsSame s (cutJump p s) := by
  refine .onProg ?_ s
  exact fun _ => ⟨rfl, rfl, rfl, rfl, rfl, rfl⟩

theorem cutInEnd_run (p : ProgId) (s : State) : RunsSame s (cutInEnd p s) := by
  have ended (g : Program) : g.SameRun { g with delay := g.delay.noOp } := ⟨rfl, rfl, rfl, rfl, rfl, rfl⟩
  unfold cutInEnd
  dsimp only
  split
  · refine .trans (.setProg ?_) (.settleNotice ..)
    exact ended _
  · exact .setProg ((ended _).trans (Program.chooseOp_kept _).sameRun)

theorem Program.endSwap_sameRun (g : Program) : g.SameRun g.endSwap := by
  unfold Program.endSwap
  dsimp only
  split <;> exact ⟨rfl, rfl, rfl, rfl, rfl, rfl⟩

theorem Program.storeFailover_sameRun (g : Program) (auto : Bool) (hold : Nat) (reset : Bool) :
    g.SameRun (g.storeFailover auto hold reset) := by
  unfold Program.storeFailover
  dsimp only
  split <;> exact ⟨rfl, rfl, rfl, rfl, rfl, rfl⟩

theorem restartMeasurement_run (p : ProgId) (s : State) : RunsSame s (restartMeasurement p s) := by
  unfold restartMeasurement
  exact .thenCond .loud _ _ _

theorem storeTarget_run (p : ProgId) (ltgt slew : Nat) (n : StepInterval) (s : State) :
    RunsSame s (storeTarget p ltgt slew n s) := by
  have stored (g : Program) : g.SameRun { g with delay := { g.delay with ltgt := ltgt, slewLimit := slew, interval := n } } :=
    ⟨rfl, rfl, rfl, rfl, rfl, rfl⟩
  exact .trans (.onProg stored s) (.recomputeDelay ..)

theorem storeEntryConfig_run (e : EntryId) (c : EntryConfig) (s : State) : RunsSame s (storeEntryConfig e c s) := by
  have stored (x : Entry) : RunsSame s (s.setEntry e x) := .ofProgs rfl rfl
  unfold storeEntryConfig
  dsimp only
  split
  · split
    · exact (stored _).trans (.ofAlarm (.judgeHealth ..))
    · exact stored _
    · exact stored _
  · exact stored _

/-- A rank's set stored and its mark cleared (R47, R49). -/
def Program.withSet (g : Program) (r : Rank) (v : Option (List SlotSource)) : Program :=
  ({ g with sets := g.sets.set r.val v } : Program).withMark r false

theorem storeSet_eq (p : ProgId) (r : Rank) (v : Option (List SlotSource)) (s : State) :
    storeSet p r v s = eligibilityEvent p (s.onProg p (·.withSet r v)) := rfl

theorem Program.withSet_setAt (g : Program) (r q : Rank) (v : Option (List SlotSource)) :
    (g.withSet r v).setAt q = if q = r then v else g.setAt q := by
  simp only [Program.withSet, Program.withMark, Program.setAt, Vector.getElem_set, Fin.ext_iff, eq_comm]

@[simp] theorem Program.withSet_active (g : Program) (r : Rank) (v : Option (List SlotSource)) :
    (g.withSet r v).active = g.active := rfl

@[simp] theorem Program.withSet_stack (g : Program) (r : Rank) (v : Option (List SlotSource)) :
    (g.withSet r v).stack = g.stack := rfl

theorem storeSet_run (p : ProgId) (r : Rank) (v : Option (List SlotSource)) (s : State) :
    RunsSame (s.onProg p (·.withSet r v)) (storeSet p r v s) := .eligibilityEvent ..

theorem refEdge_run (s : State) : RunsSame s (refEdge s) := by
  unfold refEdge
  exact .trans (.monitored ..) (.setCond ..)

theorem loseRef_run (s : State) : RunsSame s (loseRef s) := by
  unfold loseRef
  exact .trans (.monitored ..) (.setCond ..)

/-! ## The resets -/

theorem unitRestart_prog (s : State) (p : ProgId) : (unitRestart s).prog p = (s.prog p).unitRestarted := by
  rw [unitRestart, pushNotice_prog]; simp [State.prog]

theorem unitRestart_feed (s : State) (f : FeedId) : (unitRestart s).feed f = (s.feed f).restarted := by
  rw [unitRestart, pushNotice_feed]; simp [State.feed]

theorem unitRestart_cond (s : State) (e : EntryId) : (unitRestart s).cond e = false := by
  rw [unitRestart, pushNotice_cond]; simp [State.cond]

theorem unitRestart_freePages (s : State) : (unitRestart s).freePages = s.freePages := by
  rw [unitRestart, pushNotice_eq]

theorem leaveReset_prog (u : BitVec 5) (b : BitVec 2) (s : State) (p : ProgId) : (leaveReset u b s).prog p = {} := by
  simp [leaveReset, State.powerOn, State.prog]

theorem leaveReset_feed (u : BitVec 5) (b : BitVec 2) (s : State) (f : FeedId) : (leaveReset u b s).feed f = {} := by
  simp [leaveReset, State.powerOn, State.feed]

theorem leaveReset_cond (u : BitVec 5) (b : BitVec 2) (s : State) (e : EntryId) : (leaveReset u b s).cond e = false := by
  simp [leaveReset, State.powerOn, State.cond]

theorem Program.unitRestarted_inactive (g : Program) : g.unitRestarted.active = false := by
  unfold Program.unitRestarted Program.active
  cases g.state <;> rfl

theorem Program.unitRestarted_undefined {g : Program} (h : g.unitRestarted.state = .undefined) : g.state = .undefined := by
  unfold Program.unitRestarted Program.active at h
  cases e : g.state <;> simp [e] at h ⊢

theorem Program.active_iff (g : Program) : g.active = true ↔ g.state = .running ∨ g.state = .stopping := by
  unfold Program.active; cases g.state <;> decide

theorem Program.running_iff (g : Program) : g.running = true ↔ g.state = .running := by
  unfold Program.running; cases g.state <;> decide

/-! ## The page pool (R113, R114) -/

/-- The law of one program's pages. -/
def Program.PagesLaw (g : Program) : Prop :=
  g.delay.chain.length = g.slots * g.delay.reserve ∧
    (g.state = .undefined → g.slots = 0 ∧ g.delay.reserve = 0 ∧ g.delay.chain = [])

/-- The pages of every program but one. -/
def otherChains (p : ProgId) (s : State) : List Nat := (allProgs.erase p).flatMap fun q => (s.prog q).delay.chain

theorem chains_perm (p : ProgId) (s : State) :
    (allProgs.flatMap fun q => (s.prog q).delay.chain).Perm ((s.prog p).delay.chain ++ otherChains p s) := by
  have head : allProgs.Perm (p :: allProgs.erase p) := List.perm_cons_erase (List.mem_finRange p)
  exact head.flatMap_right _

/-- One program's pages and the free list exchanged, with the others kept. -/
theorem PoolLaw.exchange {s t : State} {p : ProgId} (law : PoolLaw s) (others : ∀ q, q ≠ p → t.prog q = s.prog q)
    (pages : (t.freePages ++ (t.prog p).delay.chain).Perm (s.freePages ++ (s.prog p).delay.chain))
    (own : (t.prog p).PagesLaw) : PoolLaw t := by
  have kept : otherChains p t = otherChains p s := by
    have nodup : allProgs.Nodup := List.nodup_finRange 8
    refine List.flatMap_congr fun q hq => ?_
    rw [others q ((nodup.mem_erase_iff.1 hq).1)]
  refine ⟨?_, fun q => ?_⟩
  · refine .trans ?_ law.1
    calc t.freePages ++ (allProgs.flatMap fun q => (t.prog q).delay.chain)
        |>.Perm (t.freePages ++ ((t.prog p).delay.chain ++ otherChains p t)) := (chains_perm p t).append_left _
      _ = (t.freePages ++ (t.prog p).delay.chain) ++ otherChains p s := by rw [kept, List.append_assoc]
      List.Perm _ ((s.freePages ++ (s.prog p).delay.chain) ++ otherChains p s) := pages.append_right _
      _ = s.freePages ++ ((s.prog p).delay.chain ++ otherChains p s) := List.append_assoc ..
      List.Perm _ _ := (chains_perm p s).symm.append_left _
  · by_cases hq : q = p
    · subst hq; exact own
    · rw [others q hq]; exact law.2 q

theorem RunsSame.poolLaw {s t : State} (h : RunsSame s t) (law : PoolLaw s) : PoolLaw t := by
  have chains : (allProgs.flatMap fun q => (t.prog q).delay.chain) = allProgs.flatMap fun q => (s.prog q).delay.chain :=
    List.flatMap_congr fun q _ => (h.prog q).chain
  refine ⟨by rw [h.pages, chains]; exact law.1, fun p => ?_⟩
  rw [(h.prog p).chain, (h.prog p).slots, (h.prog p).reserve, (h.prog p).state]
  exact law.2 p

theorem setRun_poolLaw {s : State} {p : ProgId} {st : ProgState} (l : List Rank) (known : st ≠ .undefined)
    (law : PoolLaw s) : PoolLaw (setRun p st l s) := by
  refine law.exchange (p := p) (fun q hq => setRun_prog_ne hq ..) ?_ ?_
  · rw [setRun_prog_self]; exact .refl _
  · rw [setRun_prog_self]
    exact ⟨(law.2 p).1, fun undefined => absurd undefined known⟩

theorem defineProgram_poolLaw {s : State} (p : ProgId) (c : Nat) (ws : List WeightCode) (law : PoolLaw s) :
    PoolLaw (defineProgram p c ws s) := by
  refine (RunsSame.clearMeasureConds p _).poolLaw (law.exchange (p := p) (fun q hq => ?_) ?_ ?_)
  · rw [State.onProg_eq, State.setProg_prog_ne hq, returnPages_prog_ne hq]
  · rw [State.onProg_eq, State.setProg_prog_self, State.setProg_freePages, returnPages_freePages]
    simp [Program.redefined]
  · rw [State.onProg_eq, State.setProg_prog_self]
    exact ⟨by simp [Program.redefined], fun undefined => by simp [Program.redefined] at undefined⟩

theorem clearProgram_poolLaw {s : State} (p : ProgId) (law : PoolLaw s) : PoolLaw (clearProgram p s) := by
  unfold clearProgram
  refine (RunsSame.thenCond (.setProgCond ..) _ _ _).poolLaw (law.exchange (p := p) (fun q hq => ?_) ?_ ?_)
  · rw [State.onProg_eq, State.setProg_prog_ne hq, returnPages_prog_ne hq]
  · rw [State.onProg_eq, State.setProg_prog_self, State.setProg_freePages, returnPages_freePages, returnPages_prog_self]
    simp
  · rw [State.onProg_eq, State.setProg_prog_self, returnPages_prog_self]
    exact ⟨by simp, fun _ => ⟨rfl, rfl, rfl⟩⟩

theorem rebuildChain_prog_self (p : ProgId) (P : Nat) (s : State) :
    (rebuildChain p P s).prog p = { s.prog p with delay := { (s.prog p).delay.flush with
      reserve := P, chain := (s.freePages ++ (s.prog p).delay.chain).take ((s.prog p).slots * P) } } := by
  simp [rebuildChain, State.prog, State.setProg]

theorem rebuildChain_poolLaw {s : State} {p : ProgId} {P : Nat} (state : (s.prog p).state = .defined)
    (room : (s.prog p).slots * P ≤ pageRoom s p) (law : PoolLaw s) : PoolLaw (rebuildChain p P s) := by
  refine law.exchange (p := p) (fun q hq => rebuildChain_prog_ne hq P s) ?_ ?_
  · rw [← rebuildChain_pool p P s]
    exact List.perm_append_comm
  · rw [rebuildChain_prog_self]
    refine ⟨?_, fun undefined => by simp [state] at undefined⟩
    rw [List.length_take, List.length_append]
    exact Nat.min_eq_left room

theorem Switched.poolLaw {p : ProgId} {s t : State} (known : (s.prog p).state ≠ .undefined) (h : Switched p s t)
    (law : PoolLaw s) : PoolLaw t := by
  cases h with
  | kept run => exact run.poolLaw law
  | moved l _ _ _ run => exact run.poolLaw (setRun_poolLaw l known law)

theorem unitRestart_poolLaw {s : State} (law : PoolLaw s) : PoolLaw (unitRestart s) := by
  have chains : (allProgs.flatMap fun q => ((unitRestart s).prog q).delay.chain) =
      allProgs.flatMap fun q => (s.prog q).delay.chain :=
    List.flatMap_congr fun q _ => by rw [unitRestart_prog]; rfl
  refine ⟨by rw [unitRestart_freePages, chains]; exact law.1, fun p => ?_⟩
  rw [unitRestart_prog]
  exact ⟨(law.2 p).1, fun undefined => (law.2 p).2 (Program.unitRestarted_undefined undefined)⟩

theorem leaveReset_poolLaw (u : BitVec 5) (b : BitVec 2) (s : State) : PoolLaw (leaveReset u b s) := by
  refine ⟨?_, fun p => by rw [leaveReset_prog]; exact ⟨rfl, fun _ => ⟨rfl, rfl, rfl⟩⟩⟩
  have empty : (allProgs.flatMap fun p => ((leaveReset u b s).prog p).delay.chain) = [] :=
    List.flatMap_eq_nil_iff.2 fun p _ => by rw [leaveReset_prog]
  have pages : (leaveReset u b s).freePages = List.range Config.pageCount := by simp only [leaveReset, State.powerOn]
  rw [empty, List.append_nil, pages]

/-! ## The source stack (R64) -/

/-- The law of one program's stack and sets. -/
def Program.RanksLaw (g : Program) : Prop :=
  (if g.active then g.stack ≠ [] ∧ g.stack.Nodup ∧ ∀ r ∈ g.stack, (g.setAt r).isSome = true else g.stack = []) ∧
    ∀ r l, g.setAt r = some l → l.length = g.slots

theorem Program.SameRun.ranksLaw {g h : Program} (k : g.SameRun h) (law : g.RanksLaw) : h.RanksLaw := by
  unfold Program.RanksLaw Program.active Program.setAt at *
  rw [k.state, k.slots, k.sets, k.stack]
  exact law

theorem RunsSame.stackLaw {s t : State} (h : RunsSame s t) (law : StackLaw s) : StackLaw t :=
  fun p => (h.prog p).ranksLaw (law p)

/-- One program's ranks changed, with the others kept. -/
theorem StackLaw.change {s t : State} {p : ProgId} (law : StackLaw s) (others : ∀ q, q ≠ p → t.prog q = s.prog q)
    (own : (t.prog p).RanksLaw) : StackLaw t := fun q => by
  by_cases hq : q = p
  · subst hq; exact own
  · rw [others q hq]; exact law q

/-- A run with a new state that runs or stops, and a stack of distinct defined ranks. -/
theorem setRun_stackLaw {s : State} {p : ProgId} {st : ProgState} {l : List Rank} (active : st = .running ∨ st = .stopping)
    (some : l ≠ []) (distinct : l.Nodup) (defined : ∀ r ∈ l, ((s.prog p).setAt r).isSome = true) (law : StackLaw s) :
    StackLaw (setRun p st l s) := by
  refine law.change (p := p) (fun q hq => setRun_prog_ne hq ..) ?_
  rw [setRun_prog_self]
  refine ⟨?_, (law p).2⟩
  rw [if_pos ((Program.active_iff _).2 active)]
  exact ⟨some, distinct, defined⟩

/-- A program taken out of its run has an empty stack. -/
theorem setRun_defined_stackLaw {s : State} (p : ProgId) (law : StackLaw s) : StackLaw (setRun p .defined [] s) := by
  refine law.change (p := p) (fun q hq => setRun_prog_ne hq ..) ?_
  rw [setRun_prog_self]
  exact ⟨by simp [Program.active], (law p).2⟩

theorem StackLaw.ofActive {s : State} {p : ProgId} (law : StackLaw s) (active : (s.prog p).active = true) :
    (s.prog p).stack ≠ [] ∧ (s.prog p).stack.Nodup ∧ ∀ r ∈ (s.prog p).stack, ((s.prog p).setAt r).isSome = true := by
  have own := (law p).1
  rwa [if_pos active] at own

theorem StackLaw.ofInactive {s : State} {p : ProgId} (law : StackLaw s) (active : (s.prog p).active = false) :
    (s.prog p).stack = [] := by
  have own := (law p).1
  rwa [if_neg (by simp [active])] at own

theorem rankSet_length {c : Nat} {l v : List SlotSource} (h : rankSet c l = some v) : v.length = c := by
  unfold rankSet at h
  split at h
  · injection h with h; subst h; assumption
  · cases h

/-- No rank of the stack of a program that runs or stops is redefined (R48). -/
theorem setTaken_notMem {g : Program} {r : Rank} {v : Option (List SlotSource)} (active : g.active = true)
    (taken : setTaken g r v = true) : r ∉ g.stack := by
  rw [Program.active_iff] at active
  unfold setTaken at taken
  obtain h | h := active <;> simp [h] at taken <;> simp_all

theorem storeSet_stackLaw {s : State} {p : ProgId} {r : Rank} (l : List SlotSource)
    (taken : setTaken (s.prog p) r (rankSet (s.prog p).slots l) = true) (law : StackLaw s) :
    StackLaw (storeSet p r (rankSet (s.prog p).slots l) s) := by
  refine (storeSet_run ..).stackLaw (law.change (p := p) (fun q hq => State.setProg_prog_ne hq s _) ?_)
  rw [State.onProg_eq, State.setProg_prog_self]
  refine ⟨?_, fun q v hv => ?_⟩
  · rw [Program.withSet_active, Program.withSet_stack]
    cases active : (s.prog p).active with
    | false => rw [if_neg (by simp)]; exact law.ofInactive active
    | true =>
      obtain ⟨some, distinct, defined⟩ := law.ofActive active
      rw [if_pos rfl]
      refine ⟨some, distinct, fun q hq => ?_⟩
      have off : q ≠ r := fun e => setTaken_notMem active taken (e ▸ hq)
      rw [Program.withSet_setAt, if_neg off]
      exact defined q hq
  · rw [Program.withSet_setAt] at hv
    split at hv
    · exact rankSet_length hv
    · exact (law p).2 q v hv

theorem noSets_ranksLaw {g : Program} (active : g.active = false) (stack : g.stack = [])
    (sets : g.sets = .replicate 4 none) : g.RanksLaw := by
  refine ⟨by rw [if_neg (by simp [active])]; exact stack, fun r l h => ?_⟩
  simp [Program.setAt, sets] at h

theorem defineProgram_stackLaw {s : State} (p : ProgId) (c : Nat) (ws : List WeightCode) (law : StackLaw s) :
    StackLaw (defineProgram p c ws s) := by
  refine (RunsSame.clearMeasureConds p _).stackLaw (law.change (p := p) (fun q hq => ?_) ?_)
  · rw [State.onProg_eq, State.setProg_prog_ne hq, returnPages_prog_ne hq]
  · rw [State.onProg_eq, State.setProg_prog_self]
    exact noSets_ranksLaw rfl rfl rfl

theorem clearProgram_stackLaw {s : State} {p : ProgId} (state : (s.prog p).state = .defined) (law : StackLaw s) :
    StackLaw (clearProgram p s) := by
  unfold clearProgram
  refine (RunsSame.thenCond (.setProgCond ..) _ _ _).stackLaw (law.change (p := p) (fun q hq => ?_) ?_)
  · rw [State.onProg_eq, State.setProg_prog_ne hq, returnPages_prog_ne hq]
  · rw [State.onProg_eq, State.setProg_prog_self, returnPages_prog_self]
    exact noSets_ranksLaw rfl (law.ofInactive (by simp [Program.active, state])) rfl

theorem rebuildChain_stackLaw {s : State} (p : ProgId) (P : Nat) (law : StackLaw s) : StackLaw (rebuildChain p P s) := by
  refine law.change (p := p) (fun q hq => rebuildChain_prog_ne hq P s) ?_
  rw [rebuildChain_prog_self]
  exact law p

theorem Switched.stackLaw {p : ProgId} {s t : State} (running : (s.prog p).state = .running) (h : Switched p s t)
    (law : StackLaw s) : StackLaw t := by
  cases h with
  | kept run => exact run.stackLaw law
  | moved l some distinct defined run =>
    obtain ⟨-, nodup, old⟩ := law.ofActive ((Program.active_iff _).2 (.inl running))
    exact run.stackLaw (setRun_stackLaw (.inl running) some (distinct nodup)
      (fun r hr => (defined r hr).elim (old r) id) law)

theorem startRank_isSome {s : State} {g : Program} (h : (g.setAt 0).isSome = true) :
    (g.setAt (startRank s g)).isSome = true := by
  unfold startRank
  cases e : allRanks.find? (rankHealthy s g) with
  | none => exact h
  | some r =>
    have healthy := List.find?_some e
    unfold rankHealthy at healthy
    cases d : g.setAt r <;> simp_all

theorem stoppedStack_sub {g : Program} {r : Rank} (h : r ∈ g.stoppedStack) : r ∈ g.stack := by
  unfold Program.stoppedStack at h
  split at h
  · unfold Program.currentRank at h
    exact List.mem_of_getLast? (by simpa using h)
  · exact h

theorem stop_stackLaw {s : State} {p : ProgId} (state : (s.prog p).state = .running) (law : StackLaw s) :
    StackLaw (setRun p .stopping (s.prog p).stoppedStack s) := by
  obtain ⟨some, distinct, defined⟩ := law.ofActive ((Program.active_iff _).2 (.inl state))
  refine setRun_stackLaw (.inr rfl) ?_ ?_ (fun r hr => defined r (stoppedStack_sub hr)) law
  · unfold Program.stoppedStack Program.currentRank
    split
    · simp [some]
    · exact some
  · unfold Program.stoppedStack
    split
    · cases (s.prog p).currentRank <;> simp
    · exact distinct

theorem unitRestart_stackLaw {s : State} (law : StackLaw s) : StackLaw (unitRestart s) := fun p => by
  rw [unitRestart_prog, if_neg (by simp [Program.unitRestarted_inactive])]
  exact ⟨rfl, (law p).2⟩

theorem leaveReset_stackLaw (u : BitVec 5) (b : BitVec 2) (s : State) : StackLaw (leaveReset u b s) := fun p => by
  rw [leaveReset_prog]
  exact noSets_ranksLaw rfl rfl rfl

/-! ## Every effect of a command -/

/-- An effect of a command leaves every run and the free list as they stood, or is one of these. -/
inductive RunWork : State → State → Prop
  | same {s t} (run : RunsSame s t) : RunWork s t
  | defineProgram {p s} (c ws) (idle : (s.prog p).idle = true) : RunWork s (defineProgram p c ws s)
  | clearProgram {p s} (state : (s.prog p).state = .defined) : RunWork s (clearProgram p s)
  | storeSet {p r s} (l) (taken : setTaken (s.prog p) r (rankSet (s.prog p).slots l) = true) :
      RunWork s (storeSet p r (rankSet (s.prog p).slots l) s)
  | startProgram {p s} (state : (s.prog p).state = .defined) (set : ((s.prog p).setAt 0).isSome = true) :
      RunWork s (startProgram p s)
  | stopProgram {p s} (state : (s.prog p).state = .running) : RunWork s (stopProgram p s)
  | selectCurrent {p r s} (running : (s.prog p).running = true) (set : ((s.prog p).setAt r).isSome = true) :
      RunWork s (selectCurrent p r s)
  | rebuildChain {p s} (P) (state : (s.prog p).state = .defined) (room : (s.prog p).slots * P ≤ pageRoom s p) :
      RunWork s (rebuildChain p P s)
  | endStopFade {p s} (state : (s.prog p).state = .stopping) : RunWork s (endStopFade p s)
  | swapSwitch {p s} (running : (s.prog p).running = true) : RunWork s (swapSwitch p s)
  | unitRestart (s) : RunWork s (unitRestart s)
  | leaveReset (u b s) : RunWork s (leaveReset u b s)

theorem Work.runWork {s t : State} (h : Work s t) : RunWork s t := by
  have own {p : ProgId} {g : Program → Program} (h : ∀ x, Program.SameRun x (g x)) : RunWork s (s.onProg p g) :=
    .same (.onProg h s)
  cases h with
  | none => exact .same (.refl s)
  | storeFeedConfig f en ex par val =>
    exact .same (.trans (b := configurePort f en ex par val s) (.setFeed ..)
      (.feedSteps (storeFeedConfig_steps f en ex par val s)))
  | clearFeedCounters f => exact .same (.setFeed ..)
  | defineProgram c ws idle => exact .defineProgram c ws idle
  | clearProgram state => exact .clearProgram state
  | storeSet l taken => exact .storeSet l taken
  | startProgram state set _ => exact .startProgram state set
  | stopProgram state => exact .stopProgram state
  | restartProgram _ => exact .same (restartProgram_run ..)
  | selectCurrent running set _ => exact .selectCurrent running set
  | beginSelect _ => exact own fun _ => ⟨rfl, rfl, rfl, rfl, rfl, rfl⟩
  | storeFailover auto hold reset => exact own fun g => g.storeFailover_sameRun auto hold reset
  | storeLoud mode body link _ => exact own fun _ => ⟨rfl, rfl, rfl, rfl, rfl, rfl⟩
  | restartMeasurement p => exact .same (restartMeasurement_run ..)
  | rebuildChain P state room => exact .rebuildChain P state room
  | storeTarget p ltgt slew n => exact .same (storeTarget_run ..)
  | storeEntryConfig c _ _ _ => exact .same (storeEntryConfig_run ..)
  | acknowledge es =>
    refine .same (.forEach ?_ es s)
    exact fun _ _ => .ofProgs rfl rfl
  | frameEdge f first => exact .same (.feedSteps (FeedSteps.refl.frameEdge first))
  | subframeReceived f w => exact .same (.feedSteps (FeedSteps.refl.subframeReceived w))
  | declareLoss first _ => exact .same (.feedSteps (FeedSteps.refl.declareLoss first))
  | outputSample => exact .same (.outputSample s)
  | passTicks n => exact .same (.passTicks n s)
  | endStartFade p => exact own fun _ => ⟨rfl, rfl, rfl, rfl, rfl, rfl⟩
  | endStopFade state => exact .endStopFade state
  | swapSwitch running => exact .swapSwitch running
  | endSwap p => exact own Program.endSwap_sameRun
  | blockClose o => exact .same (.blockClose o s)
  | silenceTimeout _ => exact .same (.setProgCond ..)
  | beginReturn p => exact .same (.beginReturn p s)
  | slewComplete _ => exact .same (slewComplete_run ..)
  | cutJump p => exact .same (cutJump_run p s)
  | cutInEnd p => exact .same (cutInEnd_run p s)
  | expireRaise e => exact .same (.expireRaise e s)
  | expireClear e => exact .same (.expireClear e s)
  | refEdge => exact .same (refEdge_run s)
  | loseRef => exact .same (loseRef_run s)
  | unitRestart => exact .unitRestart s
  | leaveReset u b => exact .leaveReset u b s

theorem RunWork.poolLaw {s t : State} (h : RunWork s t) (law : PoolLaw s) : PoolLaw t := by
  cases h with
  | same run => exact run.poolLaw law
  | defineProgram c ws _ => exact defineProgram_poolLaw _ c ws law
  | clearProgram _ => exact clearProgram_poolLaw _ law
  | storeSet l _ =>
    refine (storeSet_run ..).poolLaw (law.exchange (fun q hq => State.setProg_prog_ne hq s _) ?_ ?_)
    · rw [State.onProg_eq, State.setProg_prog_self]; exact .refl _
    · rw [State.onProg_eq, State.setProg_prog_self]; exact law.2 _
  | startProgram _ _ => exact (startProgram_run ..).poolLaw (setRun_poolLaw _ (by decide) law)
  | @stopProgram p _ _ =>
    have stopping := (stop_run p s).poolLaw (setRun_poolLaw _ (by decide) law)
    unfold Machine.stopProgram
    dsimp only
    split
    · exact (endStopFade_run ..).poolLaw (setRun_poolLaw _ (by decide) stopping)
    · exact stopping
  | selectCurrent running _ =>
    rw [Program.running_iff] at running
    exact (selectCurrent_run ..).poolLaw (setRun_poolLaw _ (by simp [running]) law)
  | rebuildChain P state room => exact rebuildChain_poolLaw state room law
  | endStopFade _ => exact (endStopFade_run ..).poolLaw (setRun_poolLaw _ (by decide) law)
  | swapSwitch running =>
    rw [Program.running_iff] at running
    exact (swapSwitch_run ..).poolLaw (by simp [running]) law
  | unitRestart => exact unitRestart_poolLaw law
  | leaveReset u b => exact leaveReset_poolLaw u b s

theorem RunWork.stackLaw {s t : State} (h : RunWork s t) (law : StackLaw s) : StackLaw t := by
  cases h with
  | same run => exact run.stackLaw law
  | defineProgram c ws _ => exact defineProgram_stackLaw _ c ws law
  | clearProgram state => exact clearProgram_stackLaw state law
  | storeSet l taken => exact storeSet_stackLaw l taken law
  | startProgram _ set =>
    refine (startProgram_run ..).stackLaw (setRun_stackLaw (.inl rfl) (by simp) (by simp) (fun r hr => ?_) law)
    rw [List.mem_singleton.1 hr]
    exact startRank_isSome set
  | @stopProgram p _ state =>
    have stopping := (stop_run p s).stackLaw (stop_stackLaw state law)
    unfold Machine.stopProgram
    dsimp only
    split
    · exact (endStopFade_run ..).stackLaw (setRun_defined_stackLaw _ stopping)
    · exact stopping
  | selectCurrent running set =>
    rw [Program.running_iff] at running
    refine (selectCurrent_run ..).stackLaw (setRun_stackLaw (.inl running) (by simp) (by simp) (fun x hx => ?_) law)
    rw [List.mem_singleton.1 hx]
    exact set
  | rebuildChain P _ _ => exact rebuildChain_stackLaw _ P law
  | endStopFade _ => exact (endStopFade_run ..).stackLaw (setRun_defined_stackLaw _ law)
  | swapSwitch running => exact (swapSwitch_run ..).stackLaw ((Program.running_iff _).1 running) law
  | unitRestart => exact unitRestart_stackLaw law
  | leaveReset u b => exact leaveReset_stackLaw u b s

theorem SameUnit.runsSame {s t : State} (h : SameUnit s t) : RunsSame s t := .ofProgs h.freePages h.progs

/-- Settles O55: pages move between the free list and one program's chain only. -/
theorem poolLawKept : Obligations.PoolLawKept := fun _ _ law h =>
  step_keeps (fun _ _ same => same.runsSame.poolLaw) (fun _ _ w => w.runWork.poolLaw) law h

/-- Settles O56: the changes of a program's run put distinct defined ranks on its stack, or none. -/
theorem stackLawKept : Obligations.StackLawKept := fun _ _ law h =>
  step_keeps (fun _ _ same => same.runsSame.stackLaw) (fun _ _ w => w.runWork.stackLaw) law h

end Sys2Proof.Machine
end

section
/-! PROOFS. What the loudness laws read of a program (`Control`), and the work that leaves it as it stands. -/
namespace Sys2Proof.Machine

/-! ## Conditions that an effect reaches -/

/-- A condition made true or false leaves every other one, but for NO_SOURCE of the programs that its entry reaches. -/
theorem setCond_cond {e d : EntryId} (h : d ≠ e) (hn : ∀ p, d ≠ progEntry p .noSource) (v : Bool) (s : State) :
    (setCond e v s).cond d = s.cond d :=
  ((setCond_effect e v s).cond d hn).trans (State.setCondBit_cond_ne h s v)

theorem setCond_cond_self {e : EntryId} (hn : ∀ p, e ≠ progEntry p .noSource) (v : Bool) (s : State) :
    (setCond e v s).cond e = v := by
  rw [(setCond_effect e v s).cond e hn, State.setCondBit_cond_self]

theorem progEntry_ne {k l : ProgCond} (h : k ≠ l) (p q : ProgId) : progEntry p k ≠ progEntry q l :=
  fun e => h (progEntry_inj e).2

/-- A condition of a feed is set as it is given, and no other of a feed is touched. -/
theorem setFeedCond_feedCond (f : FeedId) (k : FeedCond) (v : Bool) (s : State) (g : FeedId) (j : FeedCond) :
    (setFeedCond f k v s).feedCond g j = if g = f ∧ j = k then v else s.feedCond g j := by
  have noSource (p : ProgId) : feedEntry g j ≠ progEntry p .noSource := feedEntry_ne_progEntry _ _ _ _
  unfold State.feedCond setFeedCond
  by_cases h : g = f ∧ j = k
  · obtain ⟨rfl, rfl⟩ := h
    rw [setCond_cond_self noSource, if_pos ⟨rfl, rfl⟩]
  · rw [setCond_cond (fun e => h (feedEntry_inj e)) noSource, if_neg h]

theorem setSilence_progCond {j : ProgCond} (h : j ≠ .noSource) (p q : ProgId) (v : Bool) (s : State) :
    (setProgCond p .silence v s).progCond q j = if q = p ∧ j = .silence then v else s.progCond q j := by
  have noSource (r : ProgId) : progEntry q j ≠ progEntry r .noSource := progEntry_ne h _ _
  unfold State.progCond setProgCond
  by_cases e : q = p ∧ j = .silence
  · obtain ⟨rfl, rfl⟩ := e
    rw [setCond_cond_self noSource, if_pos ⟨rfl, rfl⟩]
  · rw [setCond_cond (fun g => e (progEntry_inj g)) noSource, if_neg e]

theorem moveTarget_cond (p : ProgId) (s : State) (e : EntryId) : (moveTarget p s).cond e = s.cond e := by
  unfold moveTarget settleNotice
  dsimp only
  split
  · rfl
  · split
    · split
      · rw [pushNotice_cond]; rfl
      · rfl
    · split <;> rfl

/-! ## The control record -/

/-- What the laws of G and of SILENCE read of a program: its state, its settings, G, its silence timer and SILENCE. -/
structure Control where
  state : ProgState
  pending : LoudSettings
  active : LoudSettings
  ownGain : Int
  timer : Nat
  silence : Bool

/-- The control record of a program's own fields, with SILENCE given. -/
def Program.control (g : Program) (silence : Bool) : Control :=
  { state := g.state, pending := g.loud.pending, active := g.loud.active, ownGain := g.loud.ownGain
    timer := g.loud.silenceTimer, silence := silence }

def control (s : State) (p : ProgId) : Control := (s.prog p).control (s.progCond p .silence)

/-- Two states agree on every program's control record. -/
def ControlSame (s t : State) : Prop := ∀ p, control t p = control s p

/-- Two states agree on every program's control record and applied gain. -/
structure LoudSame (s t : State) : Prop where
  control : ControlSame s t
  applied : ∀ p, (t.prog p).loud.appliedGain = (s.prog p).loud.appliedGain

/-- A program's loudness laws read nothing of a change. -/
def Program.SameLoud (g h : Program) : Prop := (∀ b, h.control b = g.control b) ∧ h.loud.appliedGain = g.loud.appliedGain

theorem Program.SameLoud.ofLoud {g h : Program} (state : h.state = g.state) (loud : h.loud = g.loud) : g.SameLoud h := by
  unfold Program.SameLoud Program.control
  rw [state, loud]
  exact ⟨fun _ => rfl, rfl⟩

theorem ControlSame.trans {a b c : State} (h : ControlSame a b) (g : ControlSame b c) : ControlSame a c :=
  fun p => (g p).trans (h p)

namespace LoudSame

@[refl] theorem refl (s : State) : LoudSame s s := ⟨fun _ => rfl, fun _ => rfl⟩

theorem trans {a b c : State} (h : LoudSame a b) (g : LoudSame b c) : LoudSame a c :=
  ⟨h.control.trans g.control, fun p => (g.applied p).trans (h.applied p)⟩

theorem forEach {α : Type} {f : α → State → State} (h : ∀ x s, LoudSame s (f x s)) (l : List α) (s : State) :
    LoudSame s (forEach l f s) := forEach_relation .refl .trans h l s

theorem of {s t : State} (prog : ∀ p, (s.prog p).SameLoud (t.prog p))
    (silence : ∀ p, t.progCond p .silence = s.progCond p .silence) : LoudSame s t :=
  ⟨fun p => by unfold Machine.control; rw [silence p]; exact (prog p).1 _, fun p => (prog p).2⟩

theorem ofProgs {s t : State} (progs : t.progs = s.progs) (conds : t.conds = s.conds) : LoudSame s t :=
  of (fun p => .ofLoud (by rw [State.prog_congr progs]) (by rw [State.prog_congr progs]))
    fun _ => State.cond_congr conds _

theorem setProg {p : ProgId} {s : State} {x : Program} (h : (s.prog p).SameLoud x) : LoudSame s (s.setProg p x) := by
  refine of (fun q => ?_) fun _ => rfl
  by_cases hq : q = p
  · subst hq; rw [State.setProg_prog_self]; exact h
  · rw [State.setProg_prog_ne hq]; exact ⟨fun _ => rfl, rfl⟩

theorem onProg {p : ProgId} {g : Program → Program} (h : ∀ x, Program.SameLoud x (g x)) (s : State) :
    LoudSame s (s.onProg p g) := setProg (h _)

theorem setFeed (s : State) (f : FeedId) (x : Feed) : LoudSame s (s.setFeed f x) := ofProgs rfl rfl

theorem setEntry (s : State) (e : EntryId) (x : Entry) : LoudSame s (s.setEntry e x) := ofProgs rfl rfl

theorem ofAlarm {s t : State} (h : AlarmEffect s t) : LoudSame s t :=
  of (fun p => .ofLoud (by rw [h.prog p]) (by rw [h.prog p])) fun _ => h.cond _ fun _ => progEntry_ne (by decide) _ _

theorem setCond {e : EntryId} (he : ∀ p, e ≠ progEntry p .silence) (v : Bool) (s : State) : LoudSame s (setCond e v s) := by
  have effect := setCond_effect e v s
  exact of (fun p => .ofLoud (by rw [effect.prog p]; rfl) (by rw [effect.prog p]; rfl))
    fun p => setCond_cond (he p).symm (fun _ => progEntry_ne (by decide) _ _) v s

theorem setFeedCond (f : FeedId) (k : FeedCond) (v : Bool) (s : State) : LoudSame s (setFeedCond f k v s) :=
  setCond (fun _ => feedEntry_ne_progEntry _ _ _ _) v s

theorem setProgCond {k : ProgCond} (h : k ≠ .silence) (p : ProgId) (v : Bool) (s : State) :
    LoudSame s (setProgCond p k v s) := setCond (fun _ => progEntry_ne h _ _) v s

theorem thenCond {s t : State} (h : LoudSame s t) (p : ProgId) {k : ProgCond} (hk : k ≠ .silence) (v : Bool) :
    LoudSame s (Machine.setProgCond p k v t) := h.trans (setProgCond hk p v t)

theorem pushNotice (k : NoticeKind) (src : Source) (d : List Byte) (s : State) : LoudSame s (pushNotice k src d s) :=
  ofAlarm (.pushNotice k src d s)

theorem judgeNoSource (p : ProgId) (s : State) : LoudSame s (judgeNoSource p s) := ofAlarm (.judgeNoSource p s)

theorem judgeOnBackup (p : ProgId) (s : State) : LoudSame s (judgeOnBackup p s) := setProgCond (by decide) ..

theorem eligibilityEvent (p : ProgId) (s : State) : LoudSame s (eligibilityEvent p s) := ofAlarm (.eligibilityEvent p s)

theorem setMark (p : ProgId) (r : Rank) (v : Bool) (s : State) : LoudSame s (setMark p r v s) := by
  have marked (g : Program) : g.SameLoud (g.withMark r v) := .ofLoud rfl rfl
  exact .trans (onProg marked s) (eligibilityEvent ..)

theorem judgeLatency (p : ProgId) (s : State) : LoudSame s (judgeLatency p s) := by
  unfold Machine.judgeLatency
  exact .thenCond (.setProgCond (by decide) ..) _ (by decide) _

theorem moveTarget (p : ProgId) (s : State) : LoudSame s (moveTarget p s) :=
  of (fun q => have kept := ((FeedEffect.moveTarget 0 p s).prog q).1
    .ofLoud (by rw [kept]) (by rw [kept])) fun q => moveTarget_cond p s _

theorem recomputeDelay (p : ProgId) (s : State) : LoudSame s (recomputeDelay p s) := by
  unfold Machine.recomputeDelay
  split
  · exact .trans (.judgeLatency ..) (.moveTarget ..)
  · exact .refl s

theorem startDelay (p : ProgId) (s : State) : LoudSame s (startDelay p s) := by
  have delayed (g : Program) (d : DelayRec) : g.SameLoud { g with delay := d } := .ofLoud rfl rfl
  unfold Machine.startDelay
  exact .trans (judgeLatency p s) (setProg (delayed _ _))

theorem changeConverter (f : FeedId) (c : Converter) (s : State) : LoudSame s (changeConverter f c s) := by
  have realigned (p : ProgId) (t : State) : LoudSame t (realign f p t) := by
    unfold realign
    split
    · exact .recomputeDelay ..
    · exact .refl t
  unfold Machine.changeConverter classEvent
  dsimp only
  split
  · exact .trans (.setFeed ..) (.setFeedCond ..)
  · exact .trans (.trans (.setFeed ..) (.setFeedCond ..)) (.trans (.pushNotice ..) (.forEach realigned ..))

theorem feedSteps {f : FeedId} {s t : State} (h : FeedSteps f s t) : LoudSame s t :=
  h.keeps (.refl s) (fun _ _ _ _ _ r => r.trans (.setFeed ..)) (fun _ _ _ r => r.trans (.setFeedCond ..))
    (fun _ _ r => r.trans (.changeConverter ..)) (fun _ r => r.trans (ofAlarm (.judgeHealth ..)))

theorem keepConverter (f : FeedId) (r : Converter × Bool) (s : State) : LoudSame s (keepConverter f r s) := by
  unfold Machine.keepConverter
  dsimp only
  split
  · exact .trans (.setFeed ..) (.setFeedCond ..)
  · exact .setFeed ..

theorem clock (s : State) (m : Monitor) (x : Receiver) (n : Nat) : LoudSame s { s with monitor := m, rx := x, tick := n } :=
  ofProgs rfl rfl

theorem monitored (s : State) (m : Monitor) : LoudSame s { s with monitor := m } := ofProgs rfl rfl

theorem positions (s : State) (m n : Nat) : LoudSame s { s with tick := m, sampleInBlock := n } := ofProgs rfl rfl

theorem passTicks (n : Nat) (s : State) : LoudSame s (passTicks n s) := by
  have ports := forEach (f := fun f t => t.onPort f (Port.pass n)) (fun _ _ => setFeed ..) allFeeds s
  exact ports.trans (clock ..)

theorem programSample (frames : List (Rat × Rat)) (p : ProgId) (s : State) : LoudSame s (programSample frames p s) := by
  have sampled (trims : List Nat) (g : Program) : g.SameLoud (g.sample frames trims s.store).1 := by
    have ramped (l : Loudness) : l.ramp = { l with presentGain := l.ramp.presentGain, rampLeft := l.ramp.rampLeft } := by
      unfold Loudness.ramp; split <;> rfl
    unfold Program.sample Program.SameLoud Program.control Loudness.limit
    dsimp only
    rw [ramped]
    exact ⟨fun _ => rfl, rfl⟩
  unfold Machine.programSample
  dsimp only
  split
  · exact .trans (setProg (sampled ..)) (ofProgs rfl rfl)
  · exact ofProgs rfl rfl

theorem outputSample (s : State) : LoudSame s (outputSample s) := by
  unfold Machine.outputSample
  dsimp only
  exact .trans (.trans (.trans (passTicks _ s) (forEach (fun _ _ => keepConverter ..) _ _))
    (forEach (fun _ _ => programSample ..) _ _)) (positions ..)

/-! ### Block closes -/

theorem judgeLevels (formed : Bool) (p : ProgId) (s : State) : LoudSame s (judgeLevels formed p s) := by
  have ceiling : LoudSame s (judgeCeiling p s) := by
    have counted (b : Bool) (g : Program) : g.SameLoud
        { g with loud := { g.loud with
          heldDown := 0
          ceilingBlocks := if b then satAdd Config.counterLimit g.loud.ceilingBlocks 1 else g.loud.ceilingBlocks } } :=
      ⟨fun _ => rfl, rfl⟩
    unfold Machine.judgeCeiling
    exact .thenCond (.onProg (counted _) s) _ (by decide) _
  unfold Machine.judgeLevels
  dsimp only
  split
  · split
    · refine ceiling.trans ?_
      unfold judgeOverLevel
      dsimp only
      split
      · exact .refl _
      · exact setProgCond (by decide) ..
    · exact ceiling
  · exact .refl s

theorem countReturn (p : ProgId) (s : State) : LoudSame s (countReturn p s) := by
  unfold Machine.countReturn
  dsimp only
  split
  · split <;> refine onProg ?_ s <;> exact fun _ => .ofLoud rfl rfl
  · refine onProg ?_ s
    exact fun _ => .ofLoud rfl rfl

theorem beginReturn (p : ProgId) (s : State) : LoudSame s (beginReturn p s) := by
  unfold Machine.beginReturn
  split
  · refine onProg ?_ s
    exact fun _ => .ofLoud rfl rfl
  · exact .refl s

theorem countTimer (e : EntryId) (s : State) : LoudSame s (countTimer e s) := by
  unfold Machine.countTimer
  dsimp only
  split <;> exact ofProgs rfl rfl

theorem closeAlarm (apart : Bool) (e : EntryId) (s : State) : LoudSame s (closeAlarm apart e s) := by
  unfold Machine.closeAlarm
  dsimp only
  split
  · exact countTimer e s
  · exact (countTimer e s).trans (.trans (ofAlarm (.expireRaise ..)) (ofAlarm (.expireClear ..)))

theorem closeReturn (apart : Bool) (p : ProgId) (s : State) : LoudSame s (closeReturn apart p s) := by
  unfold Machine.closeReturn
  dsimp only
  split
  · exact countReturn p s
  · exact (countReturn p s).trans (.beginReturn ..)

/-! ### Delay, swaps and settings -/

theorem slewComplete (p : ProgId) (s : State) : LoudSame s (slewComplete p s) := by
  have moved (g : Program) (d : DelayRec) : g.SameLoud { g with delay := d } := .ofLoud rfl rfl
  rw [slewComplete_eq]
  split
  · exact .trans (.setProg (moved _ _)) (.pushNotice ..)
  · exact .setProg (moved _ _)

theorem cutInEnd (p : ProgId) (s : State) : LoudSame s (cutInEnd p s) := by
  have ended (g : Program) : g.SameLoud { g with delay := g.delay.noOp } := .ofLoud rfl rfl
  have chosen (g h : Program) (k : g.Kept h) : g.SameLoud h := .ofLoud (by rw [k.1]) (by rw [k.1])
  unfold Machine.cutInEnd
  dsimp only
  split
  · exact .trans (.setProg (ended _)) (.pushNotice ..)
  · exact .setProg (chosen _ _ (.trans (b := { s.prog p with delay := (s.prog p).delay.noOp }) ⟨rfl, rfl⟩
      (Program.chooseOp_kept _)))

theorem keepSet (p : ProgId) (c : SwapCause) (s : State) : LoudSame s (keepSet p c s) := by
  have fadeIn (g : Program) : g.SameLoud { g with swap := { g.swap with phase := .fadeIn, cause := some c } } :=
    .ofLoud rfl rfl
  exact .trans (.onProg fadeIn s) (.judgeNoSource ..)

theorem changeSet (p : ProgId) (l : List Rank) (c : SwapCause) (s : State) : LoudSame s (changeSet p l c s) := by
  have switched (g : Program) : g.SameLoud
      ({ g with stack := l, swap := { g.swap with phase := .fadeIn, cause := some c } } : Program).zeroReturn.swapReset := by
    unfold Program.swapReset
    split <;> exact ⟨fun _ => rfl, rfl⟩
  unfold Machine.changeSet sourceChanged
  dsimp only
  exact .trans (.trans (.trans (.trans (.onProg switched s) (.recomputeDelay ..)) (.judgeOnBackup ..))
    (.judgeNoSource ..)) (.pushNotice ..)

theorem failoverSwitch (p : ProgId) (c : SwapCause) (s : State) : LoudSame s (failoverSwitch p c s) := by
  unfold Machine.failoverSwitch
  dsimp only
  split
  · exact .keepSet ..
  · split
    · exact .keepSet ..
    · exact .changeSet ..

theorem swapSwitch (p : ProgId) (s : State) : LoudSame s (swapSwitch p s) := by
  unfold Machine.swapSwitch
  split
  · unfold returnSwitch
    dsimp only
    split
    · exact .changeSet ..
    · exact .failoverSwitch ..
  · split
    · unfold selectSwitch
      dsimp only
      split
      · exact .trans (.setMark ..) (.changeSet ..)
      · exact .trans (.setMark ..) (.failoverSwitch ..)
    · exact .failoverSwitch ..
  all_goals exact .failoverSwitch ..

theorem storeTarget (p : ProgId) (ltgt slew : Nat) (n : StepInterval) (s : State) :
    LoudSame s (storeTarget p ltgt slew n s) := by
  have stored (g : Program) :
      g.SameLoud { g with delay := { g.delay with ltgt := ltgt, slewLimit := slew, interval := n } } := .ofLoud rfl rfl
  exact .trans (.onProg stored s) (.recomputeDelay ..)

theorem storeEntryConfig (e : EntryId) (c : EntryConfig) (s : State) : LoudSame s (storeEntryConfig e c s) := by
  unfold Machine.storeEntryConfig
  dsimp only
  split
  · split
    · exact .trans (.setEntry ..) (ofAlarm (.judgeHealth ..))
    · exact .setEntry ..
    · exact .setEntry ..
  · exact .setEntry ..

theorem endSwap (g : Program) : g.SameLoud g.endSwap := by
  unfold Program.endSwap
  dsimp only
  split <;> exact .ofLoud rfl rfl

theorem storeFailover (g : Program) (auto : Bool) (hold : Nat) (reset : Bool) :
    g.SameLoud (g.storeFailover auto hold reset) := by
  unfold Program.storeFailover
  dsimp only
  split <;> exact .ofLoud rfl rfl

end LoudSame

end Sys2Proof.Machine
end

section
/-! PROOFS. The laws of G, of the link groups and of SILENCE (R93 to R95, R99 to R105): what changes a control record,
and that every step keeps them. -/
namespace Sys2Proof.Machine

/-! ## The laws of one control record -/

/-- G within the bounds of the active settings, 0 outside CORRECT, and settings within their ranges (R99, R100). -/
def Control.GainLaw (c : Control) : Prop :=
  c.pending.InRange ∧ c.active.InRange ∧ -c.active.cutMax ≤ c.ownGain ∧ c.ownGain ≤ c.active.boostMax ∧
    (c.active.mode ≠ .correct → c.ownGain = 0)

/-- The program runs or stops. -/
def Control.runs (c : Control) : Bool := c.state == .running || c.state == .stopping

/-- SILENCE by the silence timer (R93 to R95). -/
def Control.SilenceLaw (c : Control) : Prop :=
  c.silence = true ↔ c.runs = true ∧ c.active.silenceTime ≠ 0 ∧ c.timer = 0

theorem gainLaw_iff (s : State) : GainLaw s ↔ ∀ p, (control s p).GainLaw := Iff.rfl

theorem silenceLaw_iff (s : State) : SilenceLaw s ↔ ∀ p, (control s p).SilenceLaw := Iff.rfl

theorem control_state (s : State) (p : ProgId) : (control s p).state = (s.prog p).state := rfl

theorem control_active (s : State) (p : ProgId) : (control s p).active = (s.prog p).loud.active := rfl

/-- A change after which a program's control record keeps the laws that it kept. -/
def Control.Keeps (c d : Control) : Prop := (c.GainLaw → d.GainLaw) ∧ (c.SilenceLaw → d.SilenceLaw)

theorem Control.Keeps.refl (c : Control) : c.Keeps c := ⟨id, id⟩

theorem Control.Keeps.trans {a b c : Control} (h : a.Keeps b) (g : b.Keeps c) : a.Keeps c :=
  ⟨g.1 ∘ h.1, g.2 ∘ h.2⟩

/-- Every program's control record keeps the laws that it kept. -/
structure ControlKept (s t : State) : Prop where
  prog : ∀ p, (control s p).Keeps (control t p)

theorem ControlKept.refl (s : State) : ControlKept s s := ⟨fun _ => .refl _⟩

theorem ControlKept.trans {a b c : State} (h : ControlKept a b) (g : ControlKept b c) : ControlKept a c :=
  ⟨fun p => (h.prog p).trans (g.prog p)⟩

theorem ControlSame.kept {s t : State} (h : ControlSame s t) : ControlKept s t :=
  ⟨fun p => by rw [h p]; exact .refl _⟩

theorem LoudSame.kept {s t : State} (h : LoudSame s t) : ControlKept s t := h.control.kept

theorem ControlKept.forEach {α : Type} {f : α → State → State} (h : ∀ x s, ControlKept s (f x s)) (l : List α)
    (s : State) : ControlKept s (forEach l f s) :=
  forEach_relation (fun _ => .refl _) (fun h g => h.trans g) h l s

/-- One program's control record has changed, and no other. -/
structure Controls (p : ProgId) (c : Control) (s t : State) : Prop where
  own : control t p = c
  others : ∀ q, q ≠ p → control t q = control s q

theorem Controls.kept {p : ProgId} {c : Control} {s t : State} (h : Controls p c s t) (k : (control s p).Keeps c) :
    ControlKept s t := ⟨fun q => by
  by_cases hq : q = p
  · subst hq; rw [h.own]; exact k
  · rw [h.others q hq]; exact .refl _⟩

theorem Controls.same {p : ProgId} {c : Control} {s t u : State} (h : Controls p c s t) (g : ControlSame t u) :
    Controls p c s u := ⟨(g p).trans h.own, fun q hq => (g q).trans (h.others q hq)⟩

theorem Controls.trans {p : ProgId} {c d : Control} {s t u : State} (h : Controls p c s t) (g : Controls p d t u) :
    Controls p d s u := ⟨g.own, fun q hq => (g.others q hq).trans (h.others q hq)⟩

theorem Controls.cast {p : ProgId} {c d : Control} {s t : State} (h : Controls p c s t) (e : c = d) :
    Controls p d s t := e ▸ h

theorem Controls.onProg (p : ProgId) (g : Program → Program) (s : State) :
    Controls p ((g (s.prog p)).control (s.progCond p .silence)) s (s.onProg p g) := by
  refine ⟨?_, fun q hq => ?_⟩ <;> unfold Machine.control
  · rw [State.onProg_eq, State.setProg_prog_self]; rfl
  · rw [State.onProg_eq, State.setProg_prog_ne hq]; rfl

/-- SILENCE made true or false changes that bit alone. -/
theorem Controls.setSilence (p : ProgId) (v : Bool) (s : State) :
    Controls p { control s p with silence := v } s (setProgCond p .silence v s) := by
  have effect := setProgCond_effect p .silence v s
  have fields (q : ProgId) (b : Bool) : ((setProgCond p .silence v s).prog q).control b = (s.prog q).control b := by
    rw [effect.prog q]; rfl
  refine ⟨?_, fun q hq => ?_⟩
  · unfold Machine.control
    rw [fields, setSilence_progCond (by decide), if_pos ⟨rfl, rfl⟩]
    rfl
  · unfold Machine.control
    rw [fields, setSilence_progCond (by decide), if_neg (fun h => hq h.1)]

/-! ## Settings (R99, R100) -/

theorem LoudSettings.default_inRange : ({} : LoudSettings).InRange := by simp [LoudSettings.InRange]

theorem levelAt_readLevels (body : List Byte) (i : Nat) (r : Int × Int)
    (h : [((-400 : Int), (-100 : Int)), (0, 300), (0, 200), (1, 50), (1, 100), (0, 100), (10, 300), (-100, 0), (-300, 120),
      (-900, -300), (0, 600)][i]? = some r) :
    levelAt (readLevels body) i = clampInt r.1 r.2 (signedAt body (2 + 2 * i)) := by
  unfold levelAt readLevels
  rw [List.getD_eq_getElem?_getD, List.getElem?_mapIdx, h]
  rfl

/-- Whatever a LOUD_CONFIG body holds, the settings stored lie in their ranges. -/
theorem settingsOf_inRange (mode : LoudMode) (body : List Byte) {link : Nat} (h : link ≤ 4) :
    (settingsOf mode (readLevels body) link).InRange := by
  have bound (i : Nat) (lo hi : Int) (order : lo ≤ hi)
      (h : [((-400 : Int), (-100 : Int)), (0, 300), (0, 200), (1, 50), (1, 100), (0, 100), (10, 300), (-100, 0),
        (-300, 120), (-900, -300), (0, 600)][i]? = some (lo, hi)) :
      lo ≤ levelAt (readLevels body) i ∧ levelAt (readLevels body) i ≤ hi := by
    rw [levelAt_readLevels body i _ h]
    exact clampInt_mem order _
  have target := bound 0 (-400) (-100) (by decide) rfl
  have cutMax := bound 1 0 300 (by decide) rfl
  have boostMax := bound 2 0 200 (by decide) rfl
  have rise := bound 3 1 50 (by decide) rfl
  have fall := bound 4 1 100 (by decide) rfl
  have holdOff := bound 5 0 100 (by decide) rfl
  have window := bound 6 10 300 (by decide) rfl
  have ceiling := bound 7 (-100) 0 (by decide) rfl
  have overLevel := bound 8 (-300) 120 (by decide) rfl
  have silence := bound 9 (-900) (-300) (by decide) rfl
  have time := bound 10 0 600 (by decide) rfl
  unfold LoudSettings.InRange settingsOf
  dsimp only
  omega

theorem LoudSettings.InRange.bounds {a : LoudSettings} (h : a.InRange) : 0 ≤ a.cutMax ∧ 0 ≤ a.boostMax := by
  unfold LoudSettings.InRange at h; omega

/-- With G at 0 the law of G asks for the ranges alone. -/
theorem Control.GainLaw.ofZero {c : Control} (pending : c.pending.InRange) (active : c.active.InRange)
    (zero : c.ownGain = 0) : c.GainLaw := by
  have bounds := active.bounds
  exact ⟨pending, active, by omega, by omega, fun _ => zero⟩

/-- A program that starts a measurement anew: its G at 0, its silence timer loaded and SILENCE false (R51, R55). -/
theorem Control.keeps_restarted (c : Control) (st : ProgState) :
    c.Keeps { c with state := st, ownGain := 0, timer := c.active.silenceTime, silence := false } := by
  refine ⟨fun law => .ofZero law.1 law.2.1 rfl, fun _ => ?_⟩
  unfold Control.SilenceLaw
  dsimp only
  simp only [Bool.false_eq_true, false_iff]
  rintro ⟨-, time, zero⟩
  exact time zero

/-- A program that does not run, with SILENCE false and G at 0. -/
theorem Control.keeps_ended (c : Control) (g : Int) (hg : g = 0 ∨ g = c.ownGain) (timer : Nat) :
    c.Keeps { c with state := .defined, ownGain := g, timer := timer, silence := false } := by
  refine ⟨fun law => ?_, fun _ => by simp [Control.SilenceLaw, Control.runs]⟩
  obtain rfl | rfl := hg
  · exact .ofZero law.1 law.2.1 rfl
  · exact law

/-! ## A block close of one controller (R85, R93, R94, R100 to R102) -/

theorem boundGain_bounds {a : LoudSettings} (h : a.InRange) (g : Int) :
    -a.cutMax ≤ boundGain a g ∧ boundGain a g ≤ a.boostMax ∧ (a.mode ≠ .correct → boundGain a g = 0) := by
  have bounds := h.bounds
  unfold boundGain clampInt
  split
  · exact ⟨by omega, by omega, fun other => absurd ‹_› other⟩
  · exact ⟨by omega, by omega, fun _ => rfl⟩

/-- A timer that a new silence time replaces stands at 0 only where it stood there, or where the time is 0 (R94). -/
theorem retimeSilence_eq_zero {was now timer : Nat} (h : now ≠ 0) :
    retimeSilence was now timer = 0 ↔ was ≠ 0 ∧ timer = 0 ∨ was = now ∧ timer = 0 := by
  unfold retimeSilence
  split_ifs <;> omega

/-- The control record once the pending settings are active, with SILENCE false while the silence time is 0. -/
def Control.activated (c : Control) : Control :=
  { c with
    active := c.pending, ownGain := boundGain c.pending c.ownGain
    timer := retimeSilence c.active.silenceTime c.pending.silenceTime c.timer
    silence := if c.pending.silenceTime = 0 ∧ c.active.silenceTime ≠ 0 then false else c.silence }

theorem activateSettings_controls (p : ProgId) (s : State) :
    Controls p (control s p).activated s (activateSettings p s) := by
  have active := Controls.onProg p (fun g => { g with loud := g.loud.activate }) s
  unfold activateSettings
  dsimp only
  split
  · next h =>
    have silent := active.trans (Controls.setSilence p false _)
    rw [active.own] at silent
    refine silent.cast ?_
    have ended : (control s p).pending.silenceTime = 0 ∧ (control s p).active.silenceTime ≠ 0 := h
    unfold Control.activated
    rw [if_pos ended]
    rfl
  · next h =>
    refine active.cast ?_
    have goesOn : ¬((control s p).pending.silenceTime = 0 ∧ (control s p).active.silenceTime ≠ 0) := h
    unfold Control.activated
    rw [if_neg goesOn]
    rfl

theorem Control.keeps_activated (c : Control) : c.Keeps c.activated := by
  refine ⟨fun law => ?_, fun law => ?_⟩
  · obtain ⟨low, high, off⟩ := boundGain_bounds law.1 c.ownGain
    exact ⟨law.1, law.1, low, high, off⟩
  · unfold Control.SilenceLaw at *
    unfold Control.activated Control.runs at *
    dsimp only
    by_cases now : c.pending.silenceTime = 0
    · by_cases was : c.active.silenceTime = 0
      · simp only [was, ne_eq, not_true_eq_false, false_and, and_false] at law
        simp [now, was, law]
      · simp [now, was]
    · rw [if_neg (fun h => now h.1), law, retimeSilence_eq_zero now]
      by_cases was : c.active.silenceTime = 0
      · simp [was, Ne.symm now]
      · simp [now, was]

theorem slewGain_bounds {a : LoudSettings} {g c lo hi : Int} (h : a.InRange) (hg : lo ≤ g ∧ g ≤ hi)
    (hc : lo ≤ c ∧ c ≤ hi) : lo ≤ slewGain a g c ∧ slewGain a g c ≤ hi := by
  unfold LoudSettings.InRange at h
  unfold slewGain
  split
  · omega
  · split <;> omega

theorem gainLaw_bounds {l : Loudness} (admitted : Bool) (h : l.active.InRange)
    (hg : -l.active.cutMax ≤ l.ownGain ∧ l.ownGain ≤ l.active.boostMax) :
    -l.active.cutMax ≤ gainLaw l admitted ∧ gainLaw l admitted ≤ l.active.boostMax ∧
      (l.active.mode ≠ .correct → gainLaw l admitted = 0) := by
  have bounds := h.bounds
  unfold gainLaw
  split
  · exact ⟨by omega, by omega, fun _ => rfl⟩
  · next mode =>
    refine and_assoc.1 ⟨?_, fun other => absurd other mode⟩
    split
    · exact hg
    · split
      · exact hg
      · split
        · exact hg
        · exact slewGain_bounds h hg (clampInt_mem (by omega) _)

/-- The control record after the silence timer has acted on M (R93). -/
def Control.silenced (c : Control) (m : Int) : Control :=
  { c with
    timer := countSilence c.active m c.timer
    silence := if soundHeard c.active m then false
      else if countSilence c.active m c.timer = 0 then true else c.silence }

theorem Control.keeps_silenced {c : Control} (runs : c.runs = true) (m : Int) : c.Keeps (c.silenced m) := by
  refine ⟨id, fun law => ?_⟩
  unfold Control.SilenceLaw at *
  have runs' : (c.silenced m).runs = true := runs
  simp only [runs, runs', true_and] at law ⊢
  unfold Control.silenced countSilence soundHeard
  dsimp only
  by_cases time : c.active.silenceTime = 0
  · simp [time]
  · by_cases sound : c.active.silenceThreshold ≤ m
    · simp [time, sound]
    · simp only [time, sound, beq_iff_eq, Bool.or_eq_true, decide_eq_true_eq, or_self, if_false, ne_eq, not_false_eq_true,
        true_and]
      split
      · simpa using ‹_›
      · rw [law]
        simp only [time, ne_eq, not_false_eq_true, true_and]
        omega

theorem silenceStep_kept {p : ProgId} {s : State} (active : (s.prog p).active = true) :
    ControlKept s (silenceStep p s) := by
  unfold silenceStep
  dsimp only
  split
  · exact .refl s
  · split
    · exact .refl s
    · next m _ =>
      have timed := Controls.onProg p (fun g => { g with loud := { g.loud with
        silenceTimer := countSilence (s.prog p).loud.active m (s.prog p).loud.silenceTimer } }) s
      suffices h : Controls p ((control s p).silenced m) s _ from
        h.kept (Control.keeps_silenced (c := control s p) active m)
      split
      · next h =>
        have heard : soundHeard (control s p).active m = true := h
        have silent := timed.trans (Controls.setSilence p false _)
        rw [timed.own] at silent
        refine silent.cast ?_
        unfold Control.silenced
        rw [if_pos heard]
        rfl
      · next h =>
        have heard : ¬soundHeard (control s p).active m = true := h
        split
        · next h =>
          have zero : countSilence (control s p).active m (control s p).timer = 0 := h
          have silent := timed.trans (Controls.setSilence p true _)
          rw [timed.own] at silent
          refine silent.cast ?_
          unfold Control.silenced
          rw [if_neg heard, if_pos zero]
          rfl
        · next h =>
          have zero : ¬countSilence (control s p).active m (control s p).timer = 0 := h
          refine timed.cast ?_
          unfold Control.silenced
          rw [if_neg heard, if_neg zero]
          rfl

theorem closeMeasured_kept {p : ProgId} {s : State} (active : (s.prog p).active = true) :
    ControlKept s (closeMeasured p s) := by
  have measured (g : Program) : g.SameLoud
      { g with loud := (g.loud.measureBlock g.weights g.swapping).zeroAccumulators } := ⟨fun _ => rfl, rfl⟩
  unfold closeMeasured
  dsimp only
  generalize hm : State.onProg s p _ = t
  have formed : LoudSame s t := by subst hm; exact .onProg measured s
  have runs : (t.prog p).active = true := by subst hm; rw [State.onProg_eq, State.setProg_prog_self]; exact active
  refine formed.kept.trans ((silenceStep_kept runs).trans ?_)
  · refine (Controls.onProg p _ _).kept ⟨fun law => ?_, id⟩
    obtain ⟨pending, range, low, high, -⟩ := law
    exact ⟨pending, range, gainLaw_bounds _ range ⟨low, high⟩⟩

theorem closeController_kept (p : ProgId) (s : State) : ControlKept s (closeController p s) := by
  have activated := (activateSettings_controls p s).kept (Control.keeps_activated _)
  unfold closeController
  dsimp only
  split
  · next forms =>
    refine activated.trans (closeMeasured_kept ?_)
    unfold formsBlock at forms
    rw [Bool.and_eq_true] at forms
    rw [Program.active, ((RunsSame.activateSettings p s).prog p).state]
    exact forms.1
  · refine activated.trans (LoudSame.onProg (fun g => ?_) _).kept
    split
    · exact ⟨fun _ => rfl, rfl⟩
    · exact ⟨fun _ => rfl, rfl⟩

theorem closeLevels_kept (formed : ProgId → Bool) (s : State) : ControlKept s (closeLevels formed s) := by
  have applied (p : ProgId) (t : State) : ControlKept t (formAtClose (appliedGainOf s) p t) := by
    refine (Controls.onProg p _ t).kept ?_
    unfold Program.control
    dsimp only
    split <;> exact .refl _
  exact (ControlKept.forEach applied ..).trans (.forEach (fun p t => (LoudSame.judgeLevels (formed p) p t).kept) ..)

theorem closeWork_kept (o : CloseOrder) (formed : ProgId → Bool) (w : CloseWork) (s : State) :
    ControlKept s (closeWork o formed w s) := by
  cases w with
  | slip f => exact (LoudSame.setFeedCond ..).kept
  | measure p => exact closeController_kept p s
  | levels => exact closeLevels_kept formed s
  | alarm e => exact (LoudSame.closeAlarm ..).kept
  | returns p => exact (LoudSame.closeReturn ..).kept

theorem blockClose_kept (o : CloseOrder) (s : State) : ControlKept s (blockClose o s) := by
  have started (n : BitVec 32) : LoudSame s { s with blockCounter := n, sampleInBlock := 0 } := .ofProgs rfl rfl
  exact (started _).kept.trans (.forEach (fun w t => closeWork_kept o _ w t) ..)

/-! ## Membership events, starts and stops (R51, R53 to R55, R105) -/

theorem GainEffect.controlSame {s t : State} (h : GainEffect s t) : ControlSame s t := fun p => by
  have silence : t.progCond p .silence = s.progCond p .silence := State.cond_congr (by rw [h.rest]) _
  unfold control
  rw [silence, h.prog p]
  rfl

/-- The state in which a PROG_START forms A anew (R51, R105). -/
def startedState (p : ProgId) (s : State) : State :=
  setProgCond p .silence false (startDelay p (judgeNoSource p (s.onProg p (·.started (startRank s (s.prog p))))))

theorem startProgram_eq (p : ProgId) (s : State) :
    startProgram p s = judgeOnBackup p (sourceChanged p none (some (startRank s (s.prog p))) none
      (snapGain p (membershipEvent p (startedState p s)))) := rfl

theorem startedState_controls (p : ProgId) (s : State) :
    Controls p { control s p with
      state := .running, ownGain := 0, timer := (control s p).active.silenceTime, silence := false } s
      (startedState p s) := by
  have begun := Controls.onProg p (·.started (startRank s (s.prog p))) s
  have delayed := begun.same ((LoudSame.judgeNoSource p _).control.trans (LoudSame.startDelay p _).control)
  have silent := delayed.trans (Controls.setSilence p false _)
  rw [delayed.own] at silent
  exact silent

theorem snapGain_same (p : ProgId) (s : State) : LoudSame s (snapGain p s) := by
  refine .onProg ?_ s
  exact fun _ => ⟨fun _ => rfl, rfl⟩

/-- What a PROG_START does after it has formed A anew. -/
theorem startProgram_same (p : ProgId) (s : State) :
    LoudSame (membershipEvent p (startedState p s)) (startProgram p s) := by
  rw [startProgram_eq]
  exact .trans (.trans (snapGain_same ..) (.pushNotice ..)) (.judgeOnBackup ..)

theorem startProgram_kept (p : ProgId) (s : State) : ControlKept s (startProgram p s) :=
  ((startedState_controls p s).kept (Control.keeps_restarted _ _)).trans
    ((GainEffect.membershipEvent ..).controlSame.kept.trans (startProgram_same p s).kept)

/-- The state in which a PROG_RESTART forms A anew (R55, R105). -/
def rerunState (p : ProgId) (s : State) : State :=
  startDelay p (setProgCond p .silence false (s.onProg p Program.rerun))

theorem restartProgram_eq (p : ProgId) (s : State) : restartProgram p s = membershipEvent p (rerunState p s) := rfl

theorem rerunState_controls (p : ProgId) (s : State) :
    Controls p { control s p with ownGain := 0, timer := (control s p).active.silenceTime, silence := false } s
      (rerunState p s) := by
  have begun := Controls.onProg p Program.rerun s
  have silent := begun.trans (Controls.setSilence p false _)
  rw [begun.own] at silent
  exact silent.same (LoudSame.startDelay p _).control

theorem restartProgram_kept (p : ProgId) (s : State) : ControlKept s (restartProgram p s) :=
  ((rerunState_controls p s).kept (Control.keeps_restarted _ _)).trans
    (GainEffect.membershipEvent p (rerunState p s)).controlSame.kept

/-- The measurement and latency conditions made false: of the loudness laws' fields, SILENCE alone. -/
theorem clearMeasureConds_controls (p : ProgId) (s : State) :
    Controls p { control s p with silence := false } s (clearMeasureConds p s) := by
  unfold clearMeasureConds
  exact (Controls.setSilence p false s).same (LoudSame.thenCond (.thenCond (.thenCond (.setProgCond (by decide) ..)
    _ (by decide) _) _ (by decide) _) _ (by decide) _).control

theorem clearRunConds_controls (p : ProgId) (s : State) :
    Controls p { control s p with silence := false } s (clearRunConds p s) := by
  have judged : LoudSame s (setProgCond p .onBackup false (setProgCond p .noSource false s)) :=
    .thenCond (.setProgCond (by decide) ..) _ (by decide) _
  have cleared := clearMeasureConds_controls p (setProgCond p .onBackup false (setProgCond p .noSource false s))
  rw [judged.control p] at cleared
  exact ⟨cleared.own, fun q hq => (cleared.others q hq).trans (judged.control q)⟩

theorem endStopFade_controls (p : ProgId) (s : State) :
    Controls p { control s p with state := .defined, ownGain := 0, silence := false } s (endStopFade p s) := by
  have ended := Controls.onProg p Program.runEnded s
  have cleared := ended.trans (clearRunConds_controls p _)
  rw [ended.own] at cleared
  exact cleared.same (LoudSame.pushNotice ..).control

theorem endStopFade_kept (p : ProgId) (s : State) : ControlKept s (endStopFade p s) :=
  (endStopFade_controls p s).kept (Control.keeps_ended _ 0 (.inl rfl) _)

theorem stopped_kept {p : ProgId} {s : State} (state : (s.prog p).state = .running) :
    ControlKept s (s.onProg p Program.stopped) := by
  refine (Controls.onProg p Program.stopped s).kept ⟨id, fun law => ?_⟩
  have runs : (control s p).runs = true := by unfold control Program.control Control.runs; simp [state]
  unfold Control.SilenceLaw at *
  rw [runs] at law
  exact law

theorem stopProgram_kept {p : ProgId} {s : State} (state : (s.prog p).state = .running) :
    ControlKept s (stopProgram p s) := by
  have stopped := (stopped_kept state).trans (GainEffect.membershipEvent p _).controlSame.kept
  unfold stopProgram
  dsimp only
  split
  · exact stopped.trans (endStopFade_kept ..)
  · exact stopped

/-! ## Settings, definitions and resets -/

theorem restartMeasurement_kept (p : ProgId) (s : State) : ControlKept s (restartMeasurement p s) := by
  have loaded := Controls.onProg p (fun g => { g with loud := g.loud.emptied.loadSilence }) s
  have silent := loaded.trans (Controls.setSilence p false _)
  rw [loaded.own] at silent
  refine silent.kept ⟨id, fun _ => ?_⟩
  unfold Control.SilenceLaw
  simp only [Bool.false_eq_true, false_iff]
  rintro ⟨-, time, zero⟩
  exact time zero

theorem storeLoud_kept (p : ProgId) (mode : LoudMode) (body : List Byte) {link : Nat} (legal : link ≤ 4) (s : State) :
    ControlKept s
      (s.onProg p fun g => { g with loud := { g.loud with pending := settingsOf mode (readLevels body) link } }) :=
  (Controls.onProg p _ s).kept ⟨fun law => ⟨settingsOf_inRange mode body legal, law.2⟩, id⟩

theorem returnPages_same (p : ProgId) (s : State) : LoudSame s (returnPages p s) := by
  have flushed (d : DelayRec) (g : Program) : g.SameLoud { g with delay := d } := .ofLoud rfl rfl
  exact .trans (.setProg (flushed _ _)) (.ofProgs rfl rfl)

theorem rebuildChain_same (p : ProgId) (P : Nat) (s : State) : LoudSame s (rebuildChain p P s) := by
  have rebuilt (d : DelayRec) (g : Program) : g.SameLoud { g with delay := d } := .ofLoud rfl rfl
  exact .trans (.setProg (rebuilt _ _)) (.ofProgs rfl rfl)

theorem defineProgram_controls (p : ProgId) (c : Nat) (ws : List WeightCode) (s : State) :
    Controls p (({} : Program).control false |> ({ · with state := .defined })) s (defineProgram p c ws s) := by
  have returned := (returnPages_same p s).control
  have defined := Controls.onProg p (fun g =>
    { Program.redefined c ws with swap := g.swap, outLevel := g.outLevel, outDir := g.outDir }) (returnPages p s)
  have cleared := defined.trans (clearMeasureConds_controls p _)
  rw [defined.own] at cleared
  exact ⟨cleared.own, fun q hq => (cleared.others q hq).trans (returned q)⟩

theorem defineProgram_kept (p : ProgId) (c : Nat) (ws : List WeightCode) (s : State) :
    ControlKept s (defineProgram p c ws s) :=
  (defineProgram_controls p c ws s).kept
    ⟨fun _ => .ofZero LoudSettings.default_inRange LoudSettings.default_inRange rfl,
      fun _ => by simp [Control.SilenceLaw, Control.runs, Program.control]⟩

theorem clearProgram_kept {p : ProgId} {s : State} (state : (s.prog p).state = .defined) :
    ControlKept s (clearProgram p s) := by
  have cleared := Controls.onProg p (fun g =>
    { g with state := .undefined, slots := 0, weights := [], sets := .replicate 4 none }) (returnPages p s)
  have judged := cleared.same (LoudSame.thenCond (.setProgCond (k := .latencyUnder) (by decide) p false _) p
    (k := .latencyOver) (by decide) false).control
  refine (returnPages_same p s).kept.trans (judged.kept ⟨id, fun law => ?_⟩)
  have runs : (control (returnPages p s) p).runs = false := by
    rw [(returnPages_same p s).control p]
    unfold control Program.control Control.runs
    simp [state]
  have runs' : ((control (returnPages p s) p).runs = true) = False := by simp [runs]
  unfold Control.SilenceLaw at *
  rw [runs', false_and] at law
  change (control (returnPages p s) p).silence = true ↔ _
  rw [law]
  simp [Program.control, Control.runs]

theorem unitRestart_control (s : State) (p : ProgId) :
    control (unitRestart s) p = (s.prog p).unitRestarted.control false := by
  unfold control
  rw [unitRestart_prog, State.progCond, unitRestart_cond]

theorem unitRestart_kept (s : State) : ControlKept s (unitRestart s) := ⟨fun p => by
  rw [unitRestart_control]
  refine ⟨fun law => .ofZero law.1 law.1 rfl, fun _ => ?_⟩
  have inactive : ((s.prog p).unitRestarted.control false).runs = false := (s.prog p).unitRestarted_inactive
  unfold Control.SilenceLaw
  rw [inactive]
  simp [Program.control]⟩

theorem leaveReset_kept (u : BitVec 5) (b : BitVec 2) (s : State) : ControlKept s (leaveReset u b s) := ⟨fun p => by
  have silent : (leaveReset u b s).progCond p .silence = false := leaveReset_cond ..
  unfold control
  rw [leaveReset_prog, silent]
  exact ⟨fun _ => .ofZero LoudSettings.default_inRange LoudSettings.default_inRange rfl,
    fun _ => by simp [Control.SilenceLaw, Control.runs, Program.control]⟩⟩

theorem silenceTimeout_kept {p : ProgId} {s : State} (due : silenceIsDue s p = true) :
    ControlKept s (setProgCond p .silence true s) := by
  refine (Controls.setSilence p true s).kept ⟨id, fun _ => ?_⟩
  simp only [silenceIsDue, Bool.and_eq_true, beq_iff_eq, bne_iff_ne] at due
  obtain ⟨⟨⟨⟨active, -⟩, zero⟩, time⟩, -⟩ := due
  exact iff_of_true rfl ⟨active, time, zero⟩

/-! ## Every effect of a command -/

/-- An effect of a command leaves every loudness law's fields as they stood, or is one of these. -/
inductive LoudWork : State → State → Prop
  | same {s t} (loud : LoudSame s t) : LoudWork s t
  | defineProgram {p s} (c ws) (idle : (s.prog p).idle = true) : LoudWork s (defineProgram p c ws s)
  | clearProgram {p s} (state : (s.prog p).state = .defined) : LoudWork s (clearProgram p s)
  | startProgram {p s} (state : (s.prog p).state = .defined) : LoudWork s (startProgram p s)
  | stopProgram {p s} (state : (s.prog p).state = .running) : LoudWork s (stopProgram p s)
  | restartProgram (p s) : LoudWork s (restartProgram p s)
  | storeLoud {s} (p mode body) (link : Nat) (legal : link ≤ 4) : LoudWork s
      (s.onProg p fun g => { g with loud := { g.loud with pending := settingsOf mode (readLevels body) link } })
  | restartMeasurement (p s) : LoudWork s (restartMeasurement p s)
  | endStopFade {p s} (state : (s.prog p).state = .stopping) : LoudWork s (endStopFade p s)
  | blockClose (o s) : LoudWork s (blockClose o s)
  | silenceTimeout {p s} (due : silenceIsDue s p = true) : LoudWork s (setProgCond p .silence true s)
  | unitRestart (s) : LoudWork s (unitRestart s)
  | leaveReset (u b s) : LoudWork s (leaveReset u b s)

theorem houseRef_ne_silence (p : ProgId) : houseRefEntry ≠ progEntry p .silence := by revert p; decide

theorem Work.loudWork {s t : State} (h : Work s t) : LoudWork s t := by
  have own {p : ProgId} {g : Program → Program} (h : ∀ x, Program.SameLoud x (g x)) : LoudWork s (s.onProg p g) :=
    .same (.onProg h s)
  cases h with
  | none => exact .same (.refl s)
  | storeFeedConfig f en ex par val =>
    exact .same (.trans (b := configurePort f en ex par val s) (.setFeed ..)
      (.feedSteps (storeFeedConfig_steps f en ex par val s)))
  | clearFeedCounters f => exact .same (.setFeed ..)
  | defineProgram c ws idle => exact .defineProgram c ws idle
  | clearProgram state => exact .clearProgram state
  | storeSet l taken =>
    have stored (g : Program) (r : Rank) (v : Option (List SlotSource)) : g.SameLoud (g.withSet r v) := .ofLoud rfl rfl
    rw [storeSet_eq]
    exact .same (.trans (.onProg (fun g => stored g _ _) s) (.eligibilityEvent ..))
  | startProgram state _ _ => exact .startProgram state
  | stopProgram state => exact .stopProgram state
  | restartProgram _ => exact .restartProgram ..
  | @selectCurrent p r _ _ _ =>
    have alone (g : Program) : g.SameLoud ({ g with stack := [r] } : Program).zeroReturn := .ofLoud rfl rfl
    exact .same (.trans (.onProg alone s) (.setMark ..))
  | beginSelect _ => exact own fun _ => .ofLoud rfl rfl
  | storeFailover auto hold reset => exact own fun g => LoudSame.storeFailover g auto hold reset
  | storeLoud mode body link legal => exact .storeLoud _ mode body link legal
  | restartMeasurement p => exact .restartMeasurement ..
  | rebuildChain P _ _ => exact .same (rebuildChain_same ..)
  | storeTarget p ltgt slew n => exact .same (.storeTarget ..)
  | storeEntryConfig c _ _ _ => exact .same (.storeEntryConfig ..)
  | acknowledge es => exact .same (.forEach (fun _ _ => .setEntry ..) es s)
  | frameEdge f first => exact .same (.feedSteps (FeedSteps.refl.frameEdge first))
  | subframeReceived f w => exact .same (.feedSteps (FeedSteps.refl.subframeReceived w))
  | declareLoss first _ => exact .same (.feedSteps (FeedSteps.refl.declareLoss first))
  | outputSample => exact .same (.outputSample s)
  | passTicks n => exact .same (.passTicks n s)
  | endStartFade p => exact own fun _ => .ofLoud rfl rfl
  | endStopFade state => exact .endStopFade state
  | swapSwitch _ => exact .same (.swapSwitch ..)
  | endSwap p => exact own LoudSame.endSwap
  | blockClose o => exact .blockClose o s
  | silenceTimeout due => exact .silenceTimeout due
  | beginReturn p => exact .same (.beginReturn ..)
  | slewComplete _ => exact .same (.slewComplete ..)
  | cutJump p => exact own fun _ => .ofLoud rfl rfl
  | cutInEnd p => exact .same (.cutInEnd ..)
  | expireRaise e => exact .same (.ofAlarm (.expireRaise ..))
  | expireClear e => exact .same (.ofAlarm (.expireClear ..))
  | refEdge => unfold Machine.refEdge; exact .same (.trans (.monitored ..) (.setCond houseRef_ne_silence ..))
  | loseRef => unfold Machine.loseRef; exact .same (.trans (.monitored ..) (.setCond houseRef_ne_silence ..))
  | unitRestart => exact .unitRestart s
  | leaveReset u b => exact .leaveReset u b s

theorem LoudWork.kept {s t : State} (h : LoudWork s t) : ControlKept s t := by
  cases h with
  | same loud => exact loud.kept
  | defineProgram c ws _ => exact defineProgram_kept ..
  | clearProgram state => exact clearProgram_kept state
  | startProgram _ => exact startProgram_kept ..
  | stopProgram state => exact stopProgram_kept state
  | restartProgram p => exact restartProgram_kept p s
  | storeLoud p mode body link legal => exact storeLoud_kept p mode body legal s
  | restartMeasurement p => exact restartMeasurement_kept p s
  | endStopFade _ => exact endStopFade_kept ..
  | blockClose o => exact blockClose_kept o s
  | silenceTimeout due => exact silenceTimeout_kept due
  | unitRestart => exact unitRestart_kept s
  | leaveReset u b => exact leaveReset_kept u b s

theorem SameUnit.loudSame {s t : State} (h : SameUnit s t) : LoudSame s t := .ofProgs h.progs h.conds

theorem ControlKept.gainLaw {s t : State} (h : ControlKept s t) (law : GainLaw s) : GainLaw t :=
  (gainLaw_iff t).2 fun p => (h.prog p).1 ((gainLaw_iff s).1 law p)

theorem ControlKept.silenceLaw {s t : State} (h : ControlKept s t) (law : SilenceLaw s) : SilenceLaw t :=
  (silenceLaw_iff t).2 fun p => (h.prog p).2 ((silenceLaw_iff s).1 law p)

/-! ## Link groups (R104, R105) -/

/-- What the law of the link groups reads of a program besides its applied gain: its state, its settings and G. -/
def linkView (s : State) (p : ProgId) : ProgState × LoudSettings × Int :=
  ((s.prog p).state, (s.prog p).loud.active, (s.prog p).loud.ownGain)

/-- Two states agree on it. -/
def LinkSame (s t : State) : Prop := ∀ p, linkView t p = linkView s p

theorem linkView_of_control {s t : State} {p : ProgId} (h : control t p = control s p) : linkView t p = linkView s p :=
  congrArg (fun c : Control => (c.state, c.active, c.ownGain)) h

theorem ControlSame.linkSame {s t : State} (h : ControlSame s t) : LinkSame s t := fun p => linkView_of_control (h p)

/-- Two views of a program agree on its groups, its link number and G. -/
theorem linkView_eq {s t : State} {p : ProgId} (h : linkView t p = linkView s p) :
    (∀ n, isMember (t.prog p) n = isMember (s.prog p) n) ∧
      (t.prog p).loud.active.link = (s.prog p).loud.active.link ∧
      (t.prog p).loud.ownGain = (s.prog p).loud.ownGain := by
  simp only [linkView, Prod.mk.injEq] at h
  obtain ⟨state, active, gain⟩ := h
  exact ⟨fun n => by simp only [isMember, Program.running, state, active], by rw [active], gain⟩

theorem LinkSame.isMember {s t : State} (h : LinkSame s t) (p : ProgId) (n : Nat) :
    isMember (t.prog p) n = isMember (s.prog p) n := (linkView_eq (h p)).1 n

theorem LinkSame.ownGain {s t : State} (h : LinkSame s t) (p : ProgId) :
    (t.prog p).loud.ownGain = (s.prog p).loud.ownGain := (linkView_eq (h p)).2.2

theorem LinkSame.link {s t : State} (h : LinkSame s t) (p : ProgId) :
    (t.prog p).loud.active.link = (s.prog p).loud.active.link := (linkView_eq (h p)).2.1

/-- An applied gain is the least G of a link group's members. -/
def LeastOf (s : State) (n : Nat) (a : Int) : Prop :=
  (∀ q, isMember (s.prog q) n = true → a ≤ (s.prog q).loud.ownGain) ∧
    ∃ q, isMember (s.prog q) n = true ∧ a = (s.prog q).loud.ownGain

theorem LinkSame.leastOf {s t : State} (h : LinkSame s t) {n : Nat} {a : Int} (least : LeastOf s n a) :
    LeastOf t n a := by
  obtain ⟨lower, q, member, eq⟩ := least
  refine ⟨fun r hr => ?_, q, by rw [h.isMember]; exact member, by rw [h.ownGain]; exact eq⟩
  rw [h.isMember] at hr
  rw [h.ownGain]
  exact lower r hr

theorem LinkSame.linkLaw {s t : State} (h : LinkSame s t)
    (applied : ∀ p, (t.prog p).loud.appliedGain = (s.prog p).loud.appliedGain) (law : LinkLaw s) : LinkLaw t :=
  fun p hp => by
    rw [h.isMember, h.link] at hp
    rw [h.link, applied p]
    exact h.leastOf (law p hp)

theorem LoudSame.linkLaw {s t : State} (h : LoudSame s t) (law : LinkLaw s) : LinkLaw t :=
  h.control.linkSame.linkLaw h.applied law

/-- The least G among a list's members, from a starting value: below it and every member's, and one of them. -/
theorem foldl_least (s : State) (n : Nat) : ∀ (l : List ProgId) (start : Int),
    let m := l.foldl (fun m q => if isMember (s.prog q) n then min m (s.prog q).loud.ownGain else m) start
    m ≤ start ∧ (∀ q ∈ l, isMember (s.prog q) n = true → m ≤ (s.prog q).loud.ownGain) ∧
      (m = start ∨ ∃ q ∈ l, isMember (s.prog q) n = true ∧ m = (s.prog q).loud.ownGain)
  | [], start => ⟨Int.le_refl _, by simp, .inl rfl⟩
  | x :: l, start => by
    obtain ⟨below, least, attained⟩ := foldl_least s n l
      (if isMember (s.prog x) n then min start (s.prog x).loud.ownGain else start)
    dsimp only at *
    rw [List.foldl_cons]
    generalize l.foldl _ _ = m at *
    split at below
    · next member =>
      rw [if_pos member] at attained
      refine ⟨by omega, fun q hq hm => ?_, ?_⟩
      · obtain rfl | hq := List.mem_cons.1 hq
        · omega
        · exact least q hq hm
      · obtain eq | ⟨q, hq, hm, eq⟩ := attained
        · by_cases order : start ≤ (s.prog x).loud.ownGain
          · exact .inl (by omega)
          · exact .inr ⟨x, List.mem_cons_self, member, by omega⟩
        · exact .inr ⟨q, List.mem_cons_of_mem _ hq, hm, eq⟩
    · next other =>
      rw [if_neg other] at attained
      refine ⟨below, fun q hq hm => ?_, ?_⟩
      · obtain rfl | hq := List.mem_cons.1 hq
        · exact absurd hm other
        · exact least q hq hm
      · obtain eq | ⟨q, hq, hm, eq⟩ := attained
        · exact .inl eq
        · exact .inr ⟨q, List.mem_cons_of_mem _ hq, hm, eq⟩

/-- A of a member is the least G of its group (R104). -/
theorem appliedGainOf_leastOf {s : State} {p : ProgId} (member : isMember (s.prog p) (s.prog p).loud.active.link = true) :
    LeastOf s (s.prog p).loud.active.link (appliedGainOf s p) := by
  have least := foldl_least s (s.prog p).loud.active.link allProgs (s.prog p).loud.ownGain
  unfold appliedGainOf
  dsimp only
  rw [if_pos member]
  obtain ⟨-, lower, attained⟩ := least
  refine ⟨fun q hq => lower q (List.mem_finRange q) hq, ?_⟩
  obtain eq | ⟨q, -, hq, eq⟩ := attained
  · exact ⟨p, member, eq⟩
  · exact ⟨q, hq, eq⟩

/-- A program with no link group has its own G as A (R104). -/
theorem appliedGainOf_alone {s : State} {p : ProgId}
    (alone : isMember (s.prog p) (s.prog p).loud.active.link = false) : appliedGainOf s p = (s.prog p).loud.ownGain := by
  unfold appliedGainOf; simp [alone]

/-! ### Membership events -/

/-- A membership event reforms the applied gain of the program and of its group's members, and no other. -/
theorem reformGain_applied (p : ProgId) (formed : ProgId → Int) (left : Nat) (q r : ProgId) (s : State) :
    ((reformGain p formed left q s).prog r).loud.appliedGain =
      if r = q ∧ (q = p ∨ isMember (s.prog q) (s.prog p).loud.active.link = true) then formed q
      else (s.prog r).loud.appliedGain := by
  unfold reformGain
  dsimp only
  by_cases hr : r = q
  · subst hr
    by_cases reach : r = p ∨ isMember (s.prog r) (s.prog p).loud.active.link = true
    · have reformed : r = r ∧ (r = p ∨ isMember (s.prog r) (s.prog p).loud.active.link = true) := ⟨rfl, reach⟩
      rw [if_pos reformed]
      split
      · rw [State.onProg_eq, State.setProg_prog_self]
      · next same =>
        simp [reach] at same
        exact same
    · have apart : ¬(r = r ∧ (r = p ∨ isMember (s.prog r) (s.prog p).loud.active.link = true)) := fun h => reach h.2
      have stays : ((r == p || isMember (s.prog r) (s.prog p).loud.active.link) &&
          (s.prog r).loud.appliedGain != formed r) = false := by
        obtain ⟨other, out⟩ := not_or.1 reach
        simp [other, out]
      rw [if_neg apart, stays]
      rfl
  · have apart : ¬(r = q ∧ (q = p ∨ isMember (s.prog q) (s.prog p).loud.active.link = true)) := fun h => hr h.1
    rw [if_neg apart]
    split
    · rw [State.onProg_eq, State.setProg_prog_ne hr]
    · rfl

theorem forEach_reformGain_applied (p : ProgId) (formed : ProgId → Int) (left : Nat) (r : ProgId) :
    ∀ (l : List ProgId) (s : State), l.Nodup →
      ((forEach l (reformGain p formed left) s).prog r).loud.appliedGain =
        if r ∈ l ∧ (r = p ∨ isMember (s.prog r) (s.prog p).loud.active.link = true) then formed r
        else (s.prog r).loud.appliedGain
  | [], s, _ => by simp
  | q :: l, s, nodup => by
    obtain ⟨fresh, nodup⟩ := List.nodup_cons.1 nodup
    have same := (GainEffect.reformGain p formed left q s).controlSame.linkSame
    rw [forEach_cons, forEach_reformGain_applied p formed left r l _ nodup, same.isMember, same.link,
      reformGain_applied]
    by_cases hr : r = q
    · subst hr
      simp [fresh]
    · simp [hr]

theorem membershipEvent_applied (p r : ProgId) (s : State) :
    ((membershipEvent p s).prog r).loud.appliedGain =
      if r = p ∨ isMember (s.prog r) (s.prog p).loud.active.link = true then appliedGainOf s r
      else (s.prog r).loud.appliedGain := by
  unfold membershipEvent
  have each : r ∈ allProgs := List.mem_finRange r
  rw [forEach_reformGain_applied _ _ _ _ allProgs _ (List.nodup_finRange 8)]
  simp [each]

/-- What the link groups read of every program but one is as it was. -/
structure OthersLinked (p : ProgId) (s t : State) : Prop where
  view : ∀ q, q ≠ p → linkView t q = linkView s q
  applied : ∀ q, q ≠ p → (t.prog q).loud.appliedGain = (s.prog q).loud.appliedGain

/-- A member's group number is its own. -/
theorem isMember_link {g : Program} {n : Nat} (h : isMember g n = true) : n = g.loud.active.link := by
  simp only [isMember, Bool.and_eq_true, beq_iff_eq] at h
  exact h.2.symm

/-- Among the others, a group that the program belongs to neither before nor after is as it was. -/
theorem OthersLinked.leastOf {p : ProgId} {s t : State} (h : OthersLinked p s t) {n : Nat} {a : Int}
    (before : isMember (s.prog p) n = false) (after : isMember (t.prog p) n = false) (least : LeastOf s n a) :
    LeastOf t n a := by
  obtain ⟨lower, q, member, eq⟩ := least
  have other {r : ProgId} (hr : isMember (t.prog r) n = true) : r ≠ p := fun e => by simp [e, after] at hr
  have hq : q ≠ p := fun e => by simp [e, before] at member
  obtain ⟨groups, -, gain⟩ := linkView_eq (h.view q hq)
  refine ⟨fun r hr => ?_, q, (groups n).trans member, eq.trans gain.symm⟩
  obtain ⟨groups, -, gain⟩ := linkView_eq (h.view r (other hr))
  rw [groups] at hr
  exact (lower r hr).trans_eq gain.symm

/-- After a membership event of a program whose link group stands as it did, the law holds (R105). -/
theorem membershipEvent_linkLaw {p : ProgId} {s t : State} (others : OthersLinked p s t)
    (link : (t.prog p).loud.active.link = (s.prog p).loud.active.link) (law : LinkLaw s) :
    LinkLaw (membershipEvent p t) := fun q hq => by
  have same := (GainEffect.membershipEvent p t).controlSame.linkSame
  rw [same.isMember, same.link] at hq
  rw [same.link, membershipEvent_applied]
  refine same.leastOf ?_
  split
  · exact appliedGainOf_leastOf hq
  · next apart =>
    obtain ⟨hp, notMember⟩ := not_or.1 apart
    obtain ⟨groups, number, -⟩ := linkView_eq (others.view q hp)
    have away {u : State} (hu : (u.prog p).loud.active.link = (t.prog p).loud.active.link) :
        isMember (u.prog p) (t.prog q).loud.active.link = false := by
      refine Bool.eq_false_iff.2 fun h => notMember ?_
      rw [← hu, ← isMember_link h]
      exact hq
    rw [others.applied q hp]
    refine others.leastOf (away link.symm) (away rfl) ?_
    rw [number]
    refine law q ?_
    rw [← groups, ← number]
    exact hq

/-- A program that does not run is in no group, whatever becomes of it. -/
theorem OthersLinked.linkLaw {p : ProgId} {s t : State} (others : OthersLinked p s t)
    (before : (s.prog p).running = false) (after : (t.prog p).running = false) (law : LinkLaw s) : LinkLaw t := fun q hq => by
  have out {g : Program} (h : g.running = false) (n : Nat) : isMember g n = false := by simp [isMember, h]
  have hp : q ≠ p := fun e => by simp [e, out after] at hq
  obtain ⟨groups, number, -⟩ := linkView_eq (others.view q hp)
  rw [others.applied q hp]
  refine others.leastOf (out before _) (out after _) ?_
  rw [number]
  refine law q ?_
  rw [← groups, ← number]
  exact hq

theorem OthersLinked.trans {p : ProgId} {a b c : State} (h : OthersLinked p a b) (g : OthersLinked p b c) :
    OthersLinked p a c :=
  ⟨fun q hq => (g.view q hq).trans (h.view q hq), fun q hq => (g.applied q hq).trans (h.applied q hq)⟩

theorem LoudSame.others {s t : State} (h : LoudSame s t) (p : ProgId) : OthersLinked p s t :=
  ⟨fun q _ => linkView_of_control (h.control q), fun q _ => h.applied q⟩

theorem OthersLinked.onProg (p : ProgId) (g : Program → Program) (s : State) : OthersLinked p s (s.onProg p g) :=
  ⟨fun q hq => linkView_of_control ((Controls.onProg p g s).others q hq),
    fun q hq => by rw [State.onProg_eq, State.setProg_prog_ne hq]⟩

theorem OthersLinked.setSilence (p : ProgId) (v : Bool) (s : State) :
    OthersLinked p s (setProgCond p .silence v s) :=
  ⟨fun q hq => linkView_of_control ((Controls.setSilence p v s).others q hq),
    fun q _ => by rw [(setProgCond_effect p .silence v s).prog q]; rfl⟩

theorem setSilence_linkSame (p : ProgId) (v : Bool) (s : State) : LinkSame s (setProgCond p .silence v s) := fun q => by
  unfold linkView
  rw [(setProgCond_effect p .silence v s).prog q]
  rfl

theorem setSilence_applied (p : ProgId) (v : Bool) (s : State) (q : ProgId) :
    ((setProgCond p .silence v s).prog q).loud.appliedGain = (s.prog q).loud.appliedGain := by
  rw [(setProgCond_effect p .silence v s).prog q]
  rfl

theorem restartMeasurement_linkLaw {s : State} (p : ProgId) (law : LinkLaw s) : LinkLaw (restartMeasurement p s) := by
  refine (setSilence_linkSame _ _ _).linkLaw (setSilence_applied _ _ _) (LinkSame.linkLaw (fun q => ?_) (fun q => ?_) law) <;>
  · by_cases hq : q = p
    · subst hq; simp [linkView, Loudness.loadSilence, Loudness.emptied]
    · simp [linkView, State.setProg_prog_ne hq]

theorem startedState_others (p : ProgId) (s : State) : OthersLinked p s (startedState p s) := by
  unfold startedState
  exact .trans (.trans (.trans (.onProg ..) ((LoudSame.judgeNoSource ..).others p)) ((LoudSame.startDelay ..).others p))
    (.setSilence ..)

theorem rerunState_others (p : ProgId) (s : State) : OthersLinked p s (rerunState p s) := by
  unfold rerunState
  exact .trans (.trans (.onProg ..) (.setSilence ..)) ((LoudSame.startDelay ..).others p)

theorem clearMeasureConds_others (p : ProgId) (s : State) : OthersLinked p s (clearMeasureConds p s) := by
  unfold clearMeasureConds
  exact .trans (.setSilence p false s) ((LoudSame.thenCond (.thenCond (.thenCond (.setProgCond (by decide) ..)
    _ (by decide) _) _ (by decide) _) _ (by decide) _).others p)

theorem endStopFade_others (p : ProgId) (s : State) : OthersLinked p s (endStopFade p s) := by
  have judged (t : State) : LoudSame t (setProgCond p .onBackup false (setProgCond p .noSource false t)) :=
    .thenCond (.setProgCond (by decide) ..) _ (by decide) _
  unfold endStopFade clearRunConds
  exact .trans (.trans (.trans (.onProg ..) ((judged _).others p)) (clearMeasureConds_others ..))
    ((LoudSame.pushNotice ..).others p)

theorem stopProgram_linkLaw {p : ProgId} {s : State} (law : LinkLaw s) : LinkLaw (stopProgram p s) := by
  have stopped := membershipEvent_linkLaw (OthersLinked.onProg p Program.stopped s)
    (by rw [State.onProg_eq, State.setProg_prog_self]; rfl) law
  have state : ((membershipEvent p (s.onProg p Program.stopped)).prog p).running = false := by
    rw [Program.running, ((stop_run p s).prog p).state, setRun_prog_self]; rfl
  unfold stopProgram
  dsimp only
  split
  · refine (endStopFade_others p _).linkLaw state ?_ stopped
    rw [Program.running, ((endStopFade_run p _).prog p).state, setRun_prog_self]; rfl
  · exact stopped

/-! ### A block close -/

theorem formAtClose_applied (formed : ProgId → Int) (p q : ProgId) (s : State) :
    ((formAtClose formed p s).prog q).loud.appliedGain = if q = p then formed q else (s.prog q).loud.appliedGain := by
  unfold formAtClose
  by_cases hq : q = p
  · subst hq
    rw [State.onProg_eq, State.setProg_prog_self, if_pos rfl]
    dsimp only
    split <;> rfl
  · rw [State.onProg_eq, State.setProg_prog_ne hq, if_neg hq]

theorem forEach_formAtClose_applied (formed : ProgId → Int) (q : ProgId) : ∀ (l : List ProgId) (s : State),
    ((forEach l (formAtClose formed) s).prog q).loud.appliedGain =
      if q ∈ l then formed q else (s.prog q).loud.appliedGain
  | [], s => by simp
  | p :: l, s => by
    rw [forEach_cons, forEach_formAtClose_applied formed q l, formAtClose_applied]
    by_cases hq : q = p <;> simp [hq]

/-- Wherever the link-group minimum is taken, the law holds after it (R104). -/
theorem closeLevels_linkLaw (formed : ProgId → Bool) (s : State) : LinkLaw (closeLevels formed s) := by
  have unchanged (p : ProgId) (t : State) : ControlSame t (formAtClose (appliedGainOf s) p t) := fun q => by
    by_cases hq : q = p
    · subst hq
      rw [formAtClose, (Controls.onProg q _ t).own]
      unfold Program.control
      dsimp only
      split <;> rfl
    · exact (Controls.onProg p _ t).others q hq
  have same : LinkSame s (forEach allProgs (formAtClose (appliedGainOf s)) s) :=
    (forEach_relation (R := ControlSame) (fun _ _ => rfl) (fun h g => h.trans g) unchanged allProgs s).linkSame
  refine (LoudSame.forEach (fun p t => .judgeLevels (formed p) p t) allProgs _).linkLaw fun p hp => ?_
  rw [same.isMember, same.link] at hp
  rw [same.link, forEach_formAtClose_applied, if_pos (show p ∈ allProgs from List.mem_finRange p)]
  exact same.leastOf (appliedGainOf_leastOf hp)

theorem blockClose_linkLaw (o : CloseOrder) (s : State) : LinkLaw (blockClose o s) := by
  obtain ⟨a, b, order, nodup, -, last⟩ := closeWorks_split o
  unfold blockClose
  rw [order]
  unfold forEach
  rw [List.foldl_append, List.foldl_cons]
  have rest : ∀ (l : List CloseWork) (t : State), (∀ w ∈ l, isMeasure w = false ∧ w ≠ .levels) → LinkLaw t →
      LinkLaw (forEach l (closeWork o fun p => formsBlock (s.prog p)) t) := by
    intro l
    induction l with
    | nil => exact fun _ _ law => law
    | cons w l ih =>
      intro t only law
      rw [forEach_cons]
      refine ih _ (fun x hx => only x (List.mem_cons_of_mem _ hx)) ?_
      obtain ⟨notMeasure, notLevels⟩ := only w List.mem_cons_self
      cases w with
      | slip f => exact (LoudSame.setFeedCond ..).linkLaw law
      | measure p => simp [isMeasure] at notMeasure
      | levels => exact absurd rfl notLevels
      | alarm e => exact (LoudSame.closeAlarm ..).linkLaw law
      | returns p => exact (LoudSame.closeReturn ..).linkLaw law
  refine rest b _ (fun w hw => ⟨last w hw, fun e => ?_⟩) (closeLevels_linkLaw _ _)
  exact (List.nodup_cons.1 (List.nodup_append.1 nodup).2.1).1 (e ▸ hw)

theorem noRuns_linkLaw {s : State} (h : ∀ p, (s.prog p).active = false) : LinkLaw s := fun p hp => by
  have active := h p
  simp only [isMember, Program.running, Bool.and_eq_true] at hp
  simp [Program.active, hp.1.1.1] at active

theorem defineProgram_linkLaw {p : ProgId} {s : State} (c : Nat) (ws : List WeightCode)
    (idle : (s.prog p).idle = true) (law : LinkLaw s) : LinkLaw (defineProgram p c ws s) := by
  have before : (s.prog p).running = false := by
    unfold Program.running
    unfold Program.idle at idle
    cases e : (s.prog p).state <;> simp [e] at idle ⊢
  have after : ((defineProgram p c ws s).prog p).running = false := by
    have state : ((defineProgram p c ws s).prog p).state = .defined := by
      rw [← control_state, (defineProgram_controls p c ws s).own]
    simp [Program.running, state]
  refine OthersLinked.linkLaw (p := p) ?_ before after law
  unfold defineProgram
  exact .trans (.trans ((returnPages_same p s).others p) (.onProg ..)) (clearMeasureConds_others ..)

theorem clearProgram_linkLaw {p : ProgId} {s : State} (state : (s.prog p).state = .defined) (law : LinkLaw s) :
    LinkLaw (clearProgram p s) := by
  have kept : ((clearProgram p s).prog p).running = false := by
    unfold clearProgram
    rw [Program.running, ((RunsSame.thenCond (.setProgCond ..) _ _ _).prog p).state, State.onProg_eq,
      State.setProg_prog_self]
    rfl
  refine OthersLinked.linkLaw (p := p) ?_ (by simp [Program.running, state]) kept law
  unfold clearProgram
  exact .trans (.trans ((returnPages_same p s).others p) (.onProg ..))
    ((LoudSame.thenCond (.setProgCond (by decide) ..) _ (by decide) _).others p)

theorem LoudWork.linkLaw {s t : State} (h : LoudWork s t) (law : LinkLaw s) : LinkLaw t := by
  cases h with
  | same loud => exact loud.linkLaw law
  | defineProgram c ws idle => exact defineProgram_linkLaw c ws idle law
  | clearProgram state => exact clearProgram_linkLaw state law
  | @startProgram p _ _ =>
    have link : ((startedState p s).prog p).loud.active.link = (s.prog p).loud.active.link := by
      rw [← control_active, (startedState_controls p s).own, control_active]
    exact (startProgram_same p s).linkLaw (membershipEvent_linkLaw (startedState_others p s) link law)
  | stopProgram _ => exact stopProgram_linkLaw law
  | restartProgram p =>
    have link : ((rerunState p s).prog p).loud.active.link = (s.prog p).loud.active.link := by
      rw [← control_active, (rerunState_controls p s).own, control_active]
    rw [restartProgram_eq]
    exact membershipEvent_linkLaw (rerunState_others p s) link law
  | storeLoud p mode body link legal =>
    refine LinkSame.linkLaw (fun q => ?_) (fun q => ?_) law <;>
    · by_cases hq : q = p
      · subst hq; simp [linkView]
      · simp [linkView, State.setProg_prog_ne hq]
  | restartMeasurement p => exact restartMeasurement_linkLaw p law
  | @endStopFade p _ state =>
    refine (endStopFade_others p s).linkLaw (by simp [Program.running, state]) ?_ law
    rw [Program.running, ((endStopFade_run p s).prog p).state, setRun_prog_self]; rfl
  | blockClose o => exact blockClose_linkLaw o s
  | silenceTimeout _ => exact (setSilence_linkSame _ _ _).linkLaw (setSilence_applied _ _ _) law
  | unitRestart => exact noRuns_linkLaw fun p => by rw [unitRestart_prog]; exact Program.unitRestarted_inactive _
  | leaveReset u b => exact noRuns_linkLaw fun p => by rw [leaveReset_prog]; rfl

/-- Settles O54: every effect of a command keeps each program's control record lawful, and forms the applied gains of a
group anew where it changes the group. -/
theorem gainLawsKept : Obligations.GainLawsKept :=
  ⟨fun _ _ law h => step_keeps (fun _ _ same => same.loudSame.kept.gainLaw) (fun _ _ w => w.loudWork.kept.gainLaw) law h,
    fun _ _ law h => step_keeps (fun _ _ same => same.loudSame.linkLaw) (fun _ _ w => w.loudWork.linkLaw) law h,
    fun _ _ law h =>
      step_keeps (fun _ _ same => same.loudSame.kept.silenceLaw) (fun _ _ w => w.loudWork.kept.silenceLaw) law h⟩

end Sys2Proof.Machine
end

section
/-! PROOFS. The alarm table and the Notice Queue under every command: what happens to entries, conditions and notices is
a sequence of few kinds of change (`AlarmSteps`), each of which keeps the laws of an entry and of the queue. -/
namespace Sys2Proof.Machine

/-! ## One entry and its condition (R134 to R138) -/

/-- An entry's record after its condition has become true (R134). -/
def Entry.onTrue (x : Entry) (now : BitVec 32) : Entry :=
  match x.state with
  | .clear => if x.config.raiseDelay = 0 then x.raised now else { x with state := .rising, timer := x.config.raiseDelay }
  | .falling => { x with state := .active, timer := 0 }
  | .rising => x
  | .active => x

/-- An entry's record after its condition has become false (R134). -/
def Entry.onFalse (x : Entry) : Entry :=
  match x.state with
  | .rising => x.cleared
  | .active => if x.config.clearDelay = 0 then x.cleared else { x with state := .falling, timer := x.config.clearDelay }
  | .clear => x
  | .falling => x

@[simp] theorem entryNotice_entry (k : NoticeKind) (e d : EntryId) (s : State) :
    (entryNotice k e s).entry d = s.entry d := by
  unfold entryNotice
  dsimp only
  split
  · rfl
  · simp

theorem raiseEntry_entry (e d : EntryId) (s : State) :
    (raiseEntry e s).entry d = if d = e then (s.entry e).raised s.blockCounter else s.entry d := by
  rw [raiseEntry, entryNotice_entry, State.setEntry_entry]

theorem releaseEntry_entry (e d : EntryId) (s : State) :
    (releaseEntry e s).entry d = if d = e then (s.entry e).cleared else s.entry d := by
  rw [releaseEntry, entryNotice_entry, State.setEntry_entry]

theorem conditionTrue_entry (e d : EntryId) (s : State) :
    (conditionTrue e s).1.entry d = if d = e then (s.entry e).onTrue s.blockCounter else s.entry d := by
  unfold conditionTrue Entry.onTrue
  dsimp only
  cases state : (s.entry e).state with
  | clear =>
    dsimp only
    split
    · exact raiseEntry_entry ..
    · exact State.setEntry_entry ..
  | falling => exact State.setEntry_entry ..
  | rising => dsimp only; split <;> simp_all
  | active => dsimp only; split <;> simp_all

theorem conditionFalse_entry (e d : EntryId) (s : State) :
    (conditionFalse e s).1.entry d = if d = e then (s.entry e).onFalse else s.entry d := by
  unfold conditionFalse Entry.onFalse
  dsimp only
  cases state : (s.entry e).state with
  | rising => exact State.setEntry_entry ..
  | active =>
    dsimp only
    split
    · exact releaseEntry_entry ..
    · exact State.setEntry_entry ..
  | clear => dsimp only; split <;> simp_all
  | falling => dsimp only; split <;> simp_all

/-- An entry follows its condition: unless the condition has the value already, by `onTrue` and `onFalse`. -/
theorem follow_entry (e d : EntryId) (v : Bool) (s : State) :
    (follow e v s).1.entry d =
      if d = e ∧ s.cond e ≠ v then (if v then (s.entry e).onTrue s.blockCounter else (s.entry e).onFalse)
      else s.entry d := by
  unfold follow
  by_cases same : s.cond e = v
  · simp [same]
  · cases v
    · simp [same, conditionFalse_entry]
    · simp [same, conditionTrue_entry]

/-- The law of one entry, whose condition has the value c (R131, R134, R139, R140). -/
def Entry.Lawful (e : EntryId) (c : Bool) (x : Entry) : Prop :=
  (c = true ↔ x.state = .rising ∨ x.state = .active) ∧ (x.state = .clear ∨ x.state = .active → x.timer = 0) ∧
    x.timer ≤ 255 ∧ x.config.raiseDelay ≤ 255 ∧ x.config.clearDelay ≤ 255 ∧ x.raiseCount ≤ 255 ∧
    (x.config.severity = .off → x.latched = false) ∧ (x.config.action = .failover → failoverLegal e = true)

theorem entryLaw_iff (s : State) : EntryLaw s ↔ ∀ e, (s.entry e).Lawful e (s.cond e) := Iff.rfl

namespace Entry.Lawful

variable {e : EntryId} {x : Entry}

/-- A raise makes an entry with a true condition lawful that was so in any state before. -/
theorem raised {c : Bool} (h : x.Lawful e c) (now : BitVec 32) : (x.raised now).Lawful e true := by
  obtain ⟨-, -, -, up, down, -, off, legal⟩ := h
  refine ⟨by simp [Entry.raised], fun _ => rfl, Nat.zero_le _, up, down, Nat.min_le_right _ _, fun silent => ?_, legal⟩
  have silent : x.config.severity = .off := silent
  simp [Entry.raised, silent, off silent]

theorem cleared {c : Bool} (h : x.Lawful e c) : x.cleared.Lawful e false := by
  obtain ⟨-, -, -, up, down, count, off, legal⟩ := h
  refine ⟨by simp [Entry.cleared], fun _ => rfl, Nat.zero_le _, up, down, count, fun silent => ?_, legal⟩
  have silent : x.config.severity = .off := silent
  simp [Entry.cleared, off silent]

theorem onTrue (h : x.Lawful e false) (now : BitVec 32) : (x.onTrue now).Lawful e true := by
  unfold Entry.onTrue
  cases state : x.state with
  | clear =>
    dsimp only
    split
    · exact h.raised now
    · obtain ⟨-, -, -, up, down, count, off, legal⟩ := h
      exact ⟨by simp, by simp, up, up, down, count, off, legal⟩
  | falling =>
    obtain ⟨-, -, -, up, down, count, off, legal⟩ := h
    exact ⟨by simp, fun _ => rfl, Nat.zero_le _, up, down, count, off, legal⟩
  | rising => exact absurd (h.1.2 (.inl state)) (by simp)
  | active => exact absurd (h.1.2 (.inr state)) (by simp)

theorem onFalse (h : x.Lawful e true) : x.onFalse.Lawful e false := by
  unfold Entry.onFalse
  cases state : x.state with
  | rising => exact h.cleared
  | active =>
    dsimp only
    split
    · exact h.cleared
    · obtain ⟨-, -, -, up, down, count, off, legal⟩ := h
      exact ⟨by simp, by simp, down, up, down, count, off, legal⟩
  | clear => exact absurd (h.1.1 rfl) (by simp [state])
  | falling => exact absurd (h.1.1 rfl) (by simp [state])

/-- A timer that runs counts down. -/
theorem counted {c : Bool} (h : x.Lawful e c) (runs : x.state = .rising ∨ x.state = .falling) :
    ({ x with timer := x.timer - 1 } : Entry).Lawful e c := by
  obtain ⟨cond, -, timer, up, down, count, off, legal⟩ := h
  refine ⟨cond, fun still => ?_, by dsimp only; omega, up, down, count, off, legal⟩
  dsimp only at still
  obtain runs | runs := runs <;> simp [runs] at still

theorem configured {c : Bool} (h : x.Lawful e c) {k : EntryConfig} (legal : k.action = .failover → failoverLegal e = true)
    (up : k.raiseDelay ≤ 255) (down : k.clearDelay ≤ 255) : (x.configured k).Lawful e c := by
  obtain ⟨cond, still, timer, -, -, count, -, -⟩ := h
  refine ⟨cond, still, timer, up, down, count, fun silent => ?_, legal⟩
  have silent : k.severity = .off := silent
  simp [Entry.configured, silent]

theorem acked {c : Bool} (h : x.Lawful e c) : x.acked.Lawful e c := by
  obtain ⟨cond, still, timer, up, down, count, off, legal⟩ := h
  refine ⟨cond, still, timer, up, down, count, fun silent => ?_, legal⟩
  simp [Entry.acked, off silent]

theorem restarted {c : Bool} (h : x.Lawful e c) : x.restarted.Lawful e false := by
  obtain ⟨-, -, -, up, down, -, -, legal⟩ := h
  exact ⟨by simp [Entry.restarted], fun _ => rfl, Nat.zero_le _, up, down, Nat.zero_le _, fun _ => rfl, legal⟩

end Entry.Lawful

/-! ## What the alarm table goes through -/

/-- Between two states notices have only joined the queue, and sources the missed set. -/
structure Grows (s t : State) : Prop where
  notices : s.notices <+: t.notices
  missed : ∀ i, s.missed.getLsbD i = true → t.missed.getLsbD i = true
  law : QueueLaw s → QueueLaw t

namespace Grows

variable {s t u : State}

theorem same (notices : t.notices = s.notices) (missed : t.missed = s.missed) : Grows s t where
  notices := by rw [notices]
  missed _ h := missed ▸ h
  law h := by unfold QueueLaw; rw [notices]; exact h

theorem refl (s : State) : Grows s s := .same rfl rfl

theorem trans (h : Grows s t) (g : Grows t u) : Grows s u where
  notices := h.notices.trans g.notices
  missed i hi := g.missed i (h.missed i hi)
  law law := g.law (h.law law)

theorem pushNotice (k : NoticeKind) (src : Source) (d : List Byte) (s : State) :
    Grows s (Machine.pushNotice k src d s) where
  notices := by
    unfold Machine.pushNotice
    split
    · exact List.prefix_append ..
    · exact List.prefix_rfl
  missed i hi := by
    unfold Machine.pushNotice
    split
    · exact hi
    · simp [hi]
  law h := pushNotice_queueLaw h k src d

theorem entryNotice (k : NoticeKind) (e : EntryId) (s : State) : Grows s (Machine.entryNotice k e s) := by
  unfold Machine.entryNotice
  dsimp only
  split
  · exact .refl s
  · exact .pushNotice ..

theorem raiseEntry (e : EntryId) (s : State) : Grows s (raiseEntry e s) := by
  unfold Machine.raiseEntry
  exact (Grows.same (s := s) (t := s.setEntry e ((s.entry e).raised s.blockCounter)) rfl rfl).trans (.entryNotice ..)

theorem releaseEntry (e : EntryId) (s : State) : Grows s (releaseEntry e s) := by
  unfold Machine.releaseEntry
  exact (Grows.same (s := s) (t := s.setEntry e (s.entry e).cleared) rfl rfl).trans (.entryNotice ..)

theorem conditionTrue (e : EntryId) (s : State) : Grows s (conditionTrue e s).1 := by
  unfold Machine.conditionTrue
  dsimp only
  split
  · split
    · exact .raiseEntry e s
    · exact .same rfl rfl
  · exact .same rfl rfl
  · exact .refl s
  · exact .refl s

theorem conditionFalse (e : EntryId) (s : State) : Grows s (conditionFalse e s).1 := by
  unfold Machine.conditionFalse
  dsimp only
  split
  · exact .same rfl rfl
  · split
    · exact .releaseEntry e s
    · exact .same rfl rfl
  · exact .refl s
  · exact .refl s

theorem follow (e : EntryId) (v : Bool) (s : State) : Grows s (follow e v s).1 := by
  have bit : Grows s (s.setCondBit e v) := .same rfl rfl
  unfold Machine.follow
  split
  · exact .refl s
  · split
    · exact bit.trans (.conditionTrue ..)
    · exact bit.trans (.conditionFalse ..)

theorem countTimer (e : EntryId) (s : State) : Grows s (countTimer e s) := by
  unfold Machine.countTimer
  dsimp only
  split
  · exact .same rfl rfl
  · exact .same rfl rfl
  · exact .refl s
  · exact .refl s

end Grows

/-- What happens to entries, conditions and notices: other records change, a condition is followed by its entry, and
an entry's timer counts or has run out. -/
inductive AlarmSteps (s : State) : State → Prop
  | refl : AlarmSteps s s
  | other {t u : State} (h : AlarmSteps s t) (entries : u.entries = t.entries) (conds : u.conds = t.conds)
      (queue : Grows t u) : AlarmSteps s u
  | follow {t : State} (e : EntryId) (v : Bool) (h : AlarmSteps s t) : AlarmSteps s (follow e v t).1
  | raise {t : State} {e : EntryId} (due : raiseIsDue t e = true) (h : AlarmSteps s t) : AlarmSteps s (raiseEntry e t)
  | release {t : State} {e : EntryId} (due : clearIsDue t e = true) (h : AlarmSteps s t) : AlarmSteps s (releaseEntry e t)
  | count {t : State} (e : EntryId) (h : AlarmSteps s t) : AlarmSteps s (countTimer e t)

namespace AlarmSteps

variable {s t : State}

theorem entryLaw (h : AlarmSteps s t) (law : EntryLaw s) : EntryLaw t := by
  induction h with
  | refl => exact law
  | other _ entries conds _ ih =>
    intro e
    rw [State.entry_congr entries, State.cond_congr conds]
    exact ih e
  | @follow t e v _ ih =>
    refine (entryLaw_iff _).2 fun d => ?_
    rw [follow_entry, follow_cond]
    by_cases hd : d = e
    · subst hd
      have own : (t.entry d).Lawful d (t.cond d) := ih d
      by_cases same : t.cond d = v
      · simpa [same] using same ▸ own
      · cases v
        · simpa [same] using ((by simpa using same) ▸ own : (t.entry d).Lawful d true).onFalse
        · simpa [same] using ((by simpa using same) ▸ own : (t.entry d).Lawful d false).onTrue t.blockCounter
    · rw [if_neg hd, if_neg (fun h => hd h.1)]
      exact ih d
  | @raise t e due _ ih =>
    refine (entryLaw_iff _).2 fun d => ?_
    have own : (t.entry d).Lawful d (t.cond d) := ih d
    rw [State.cond_congr (EntryEffect.raiseEntry e t).conds, raiseEntry_entry]
    split
    · next hd =>
      subst hd
      simp only [raiseIsDue, Bool.and_eq_true, beq_iff_eq] at due
      rw [own.1.2 (.inl due.1)]
      exact own.raised _
    · exact own
  | @release t e due _ ih =>
    refine (entryLaw_iff _).2 fun d => ?_
    have own : (t.entry d).Lawful d (t.cond d) := ih d
    rw [State.cond_congr (EntryEffect.releaseEntry e t).conds, releaseEntry_entry]
    split
    · next hd =>
      subst hd
      simp only [clearIsDue, Bool.and_eq_true, beq_iff_eq] at due
      have cond : t.cond d = false := Bool.eq_false_iff.2 fun c => by simpa [due.1] using own.1.1 c
      rw [cond]
      exact own.cleared
    · exact own
  | @count t e _ ih =>
    refine (entryLaw_iff _).2 fun d => ?_
    have own : (t.entry d).Lawful d (t.cond d) := ih d
    unfold countTimer
    dsimp only
    have counts (runs : (t.entry e).state = .rising ∨ (t.entry e).state = .falling) :
        ((t.setEntry e { t.entry e with timer := (t.entry e).timer - 1 }).entry d).Lawful d (t.cond d) := by
      rw [State.setEntry_entry]
      split
      · next hd => subst hd; exact own.counted runs
      · exact own
    split
    · next state => exact counts (.inl state)
    · next state => exact counts (.inr state)
    · exact own
    · exact own

theorem grows (h : AlarmSteps s t) : Grows s t := by
  induction h with
  | refl => exact .refl s
  | other _ _ _ queue ih => exact ih.trans queue
  | follow e v _ ih => exact ih.trans (.follow e v _)
  | raise _ _ ih => exact ih.trans (.raiseEntry _ _)
  | release _ _ ih => exact ih.trans (.releaseEntry _ _)
  | count e _ ih => exact ih.trans (.countTimer e _)

theorem queueLaw (h : AlarmSteps s t) (law : QueueLaw s) : QueueLaw t := h.grows.law law

theorem setProg (p : ProgId) (x : Program) (h : AlarmSteps s t) : AlarmSteps s (t.setProg p x) := h.other rfl rfl (.same rfl rfl)

theorem onProg (p : ProgId) (g : Program → Program) (h : AlarmSteps s t) : AlarmSteps s (t.onProg p g) := h.setProg p _

theorem setFeed (f : FeedId) (x : Feed) (h : AlarmSteps s t) : AlarmSteps s (t.setFeed f x) := h.other rfl rfl (.same rfl rfl)

theorem pushNotice (k : NoticeKind) (src : Source) (d : List Byte) (h : AlarmSteps s t) :
    AlarmSteps s (pushNotice k src d t) :=
  h.other (by unfold Machine.pushNotice; split <;> rfl) (by unfold Machine.pushNotice; split <;> rfl)
    (.pushNotice k src d t)

theorem forEach {α : Type} {f : α → State → State} (each : ∀ x t, AlarmSteps s t → AlarmSteps s (f x t)) (l : List α)
    (h : AlarmSteps s t) : AlarmSteps s (Machine.forEach l f t) := forEach_induction each l t h

/-! ### The cascade (R62 to R77, R140) -/

theorem judgeNoSource (p : ProgId) (h : AlarmSteps s t) : AlarmSteps s (judgeNoSource p t) := h.follow _ _

theorem eligibilityEvent (p : ProgId) (h : AlarmSteps s t) : AlarmSteps s (eligibilityEvent p t) := by
  have judged := h.judgeNoSource p
  unfold Machine.eligibilityEvent judgeReturnSet noSourceRelease
  dsimp only
  repeat' split
  all_goals first | exact h | exact judged | exact .onProg p _ judged | exact .onProg p _ (.onProg p _ judged)

theorem setMark (p : ProgId) (r : Rank) (v : Bool) (h : AlarmSteps s t) : AlarmSteps s (setMark p r v t) :=
  (h.onProg p _).eligibilityEvent p

theorem markSuspect (p : ProgId) (r : Option Rank) (h : AlarmSteps s t) : AlarmSteps s (markSuspect p r t) := by
  cases r with
  | none => exact h
  | some r => exact h.setMark p r true

theorem healthReaches (f : FeedId) (p : ProgId) (h : AlarmSteps s t) : AlarmSteps s (healthReaches f p t) := by
  have triggered {u : State} (b : Bool) (h : AlarmSteps s u) : AlarmSteps s (feedTrigger f b p u) := by
    unfold feedTrigger
    dsimp only
    split
    · exact h.onProg p _
    · exact h
  have reached : AlarmSteps s (if (t.prog p).namesFeed f then Machine.eligibilityEvent p t else t) := by
    split
    · exact h.eligibilityEvent p
    · exact h
  unfold Machine.healthReaches
  dsimp only
  generalize (if (t.prog p).namesFeed f then Machine.eligibilityEvent p t else t) = u at reached ⊢
  split
  · exact reached
  · exact triggered _ reached

theorem judgeHealth (f : FeedId) (h : AlarmSteps s t) : AlarmSteps s (judgeHealth f t) := by
  unfold Machine.judgeHealth
  dsimp only
  split
  · exact h
  · exact .forEach (fun p _ h => h.healthReaches f p) _ (h.setFeed f _)

theorem silenceTrigger (p : ProgId) (h : AlarmSteps s t) : AlarmSteps s (silenceTrigger p t) := by
  unfold Machine.silenceTrigger
  dsimp only
  split
  · exact h
  · split
    · split
      · exact h.markSuspect p _
      · exact (h.markSuspect p _).onProg p _
    · exact (h.markSuspect p _).onProg p _
    · split
      · exact (h.markSuspect p _).onProg p _
      · exact h.markSuspect p _

theorem handOver (e : EntryId) (o : Handover) (h : AlarmSteps s t) : AlarmSteps s (handOver e o t) := by
  unfold Machine.handOver
  split
  · split
    · exact h
    · exact h.judgeHealth _
    · split
      · exact h.silenceTrigger _
      · exact h
    · exact h
    · exact h
  · exact h

theorem setCond (e : EntryId) (v : Bool) (h : AlarmSteps s t) : AlarmSteps s (setCond e v t) := (h.follow e v).handOver e _

theorem setFeedCond (f : FeedId) (k : FeedCond) (v : Bool) (h : AlarmSteps s t) : AlarmSteps s (setFeedCond f k v t) :=
  h.setCond _ v

theorem setProgCond (p : ProgId) (k : ProgCond) (v : Bool) (h : AlarmSteps s t) : AlarmSteps s (setProgCond p k v t) :=
  h.setCond _ v

theorem expireRaise (e : EntryId) (h : AlarmSteps s t) : AlarmSteps s (expireRaise e t) := by
  unfold Machine.expireRaise
  split
  · next due => exact (h.raise due).handOver e _
  · exact h

theorem expireClear (e : EntryId) (h : AlarmSteps s t) : AlarmSteps s (expireClear e t) := by
  unfold Machine.expireClear
  split
  · next due => exact (h.release due).handOver e _
  · exact h

theorem judgeOnBackup (p : ProgId) (h : AlarmSteps s t) : AlarmSteps s (judgeOnBackup p t) := h.setProgCond ..

/-! ### Delays, converters and ports -/

theorem judgeLatency (p : ProgId) (h : AlarmSteps s t) : AlarmSteps s (judgeLatency p t) :=
  (h.setProgCond ..).setProgCond ..

theorem settleNotice (p : ProgId) (h : AlarmSteps s t) : AlarmSteps s (settleNotice p t) := h.pushNotice ..

theorem moveTarget (p : ProgId) (h : AlarmSteps s t) : AlarmSteps s (moveTarget p t) := by
  unfold Machine.moveTarget
  dsimp only
  split
  · exact h.setProg ..
  · split
    · split
      · exact (h.setProg p _).settleNotice p
      · exact h.setProg ..
    · split <;> exact h.setProg ..

theorem recomputeDelay (p : ProgId) (h : AlarmSteps s t) : AlarmSteps s (recomputeDelay p t) := by
  unfold Machine.recomputeDelay
  split
  · exact (h.judgeLatency p).moveTarget p
  · exact h

theorem startDelay (p : ProgId) (h : AlarmSteps s t) : AlarmSteps s (startDelay p t) := (h.judgeLatency p).setProg ..

theorem slewComplete (p : ProgId) (h : AlarmSteps s t) : AlarmSteps s (slewComplete p t) := by
  rw [slewComplete_eq]
  split
  · exact (h.setProg p _).settleNotice p
  · exact h.setProg p _

theorem cutInEnd (p : ProgId) (h : AlarmSteps s t) : AlarmSteps s (cutInEnd p t) := by
  unfold Machine.cutInEnd
  dsimp only
  split
  · exact (h.setProg p _).settleNotice p
  · exact h.setProg p _

theorem changeConverter (f : FeedId) (c : Converter) (h : AlarmSteps s t) : AlarmSteps s (changeConverter f c t) := by
  have judged : AlarmSteps s (Machine.setFeedCond f .srcUnlocked (c.state == .track)
      (t.setFeed f { t.feed f with conv := c })) := (h.setFeed f _).setFeedCond ..
  have realigned (p : ProgId) (u : State) (h : AlarmSteps s u) : AlarmSteps s (realign f p u) := by
    unfold realign
    split
    · exact h.recomputeDelay p
    · exact h
  unfold Machine.changeConverter classEvent
  dsimp only
  split
  · exact judged
  · exact .forEach realigned _ (judged.pushNotice ..)

theorem feedSteps {f : FeedId} {u : State} (w : FeedSteps f t u) (h : AlarmSteps s t) : AlarmSteps s u :=
  w.keeps h (fun _ _ _ _ _ h => h.setFeed ..) (fun _ _ _ h => h.setFeedCond ..) (fun _ _ h => h.changeConverter ..)
    fun _ h => h.judgeHealth _

theorem keepConverter (f : FeedId) (r : Converter × Bool) (h : AlarmSteps s t) : AlarmSteps s (keepConverter f r t) := by
  unfold Machine.keepConverter
  dsimp only
  split
  · exact (h.setFeed f _).setFeedCond ..
  · exact h.setFeed f _

theorem passTicks (n : Nat) (h : AlarmSteps s t) : AlarmSteps s (passTicks n t) := by
  have counted := AlarmSteps.forEach (f := fun f t => t.onPort f (Port.pass n)) (fun f _ h => h.setFeed f _) allFeeds h
  unfold Machine.passTicks
  generalize Machine.forEach allFeeds (fun f t => t.onPort f (Port.pass n)) t = u at counted ⊢
  exact counted.other rfl rfl (.same rfl rfl)

theorem outputSample (h : AlarmSteps s t) : AlarmSteps s (outputSample t) := by
  have served (frames : List (Rat × Rat)) (p : ProgId) (u : State) (h : AlarmSteps s u) :
      AlarmSteps s (programSample frames p u) := by
    unfold programSample
    dsimp only
    split <;> exact h.other rfl rfl (.same rfl rfl)
  have converted := AlarmSteps.forEach (f := converterSample) (fun f _ h => h.keepConverter f _) allFeeds
    (h.passTicks (Config.ticksPerSample - t.tick))
  unfold Machine.outputSample
  dsimp only
  generalize Machine.forEach allFeeds converterSample _ = u at converted ⊢
  have sampled := AlarmSteps.forEach (served (allFeeds.map fun f => (u.feed f).conv.delivered)) allProgs converted
  generalize Machine.forEach allProgs _ u = v at sampled ⊢
  exact sampled.other rfl rfl (.same rfl rfl)

/-! ### Programs -/

theorem clearMeasureConds (p : ProgId) (h : AlarmSteps s t) : AlarmSteps s (clearMeasureConds p t) :=
  ((((h.setProgCond ..).setProgCond ..).setProgCond ..).setProgCond ..).setProgCond ..

theorem returnPages (p : ProgId) (h : AlarmSteps s t) : AlarmSteps s (returnPages p t) := h.other rfl rfl (.same rfl rfl)

theorem defineProgram (p : ProgId) (c : Nat) (ws : List WeightCode) (h : AlarmSteps s t) :
    AlarmSteps s (defineProgram p c ws t) := ((h.returnPages p).onProg p _).clearMeasureConds p

theorem clearProgram (p : ProgId) (h : AlarmSteps s t) : AlarmSteps s (clearProgram p t) :=
  (((h.returnPages p).onProg p _).setProgCond ..).setProgCond ..

theorem gain {u : State} (w : GainEffect t u) (h : AlarmSteps s t) : AlarmSteps s u :=
  h.other (by rw [w.rest]) (by rw [w.rest]) (.same (by rw [w.rest]) (by rw [w.rest]))

theorem startProgram (p : ProgId) (h : AlarmSteps s t) : AlarmSteps s (startProgram p t) := by
  have started : AlarmSteps s (startedState p t) :=
    (((h.onProg p _).judgeNoSource p).startDelay p).setProgCond ..
  rw [startProgram_eq]
  exact (((started.gain (.membershipEvent p _)).onProg p _).pushNotice ..).judgeOnBackup p

theorem endStopFade (p : ProgId) (h : AlarmSteps s t) : AlarmSteps s (endStopFade p t) :=
  ((((h.onProg p _).setProgCond ..).setProgCond ..).clearMeasureConds p).pushNotice ..

theorem stopProgram (p : ProgId) (h : AlarmSteps s t) : AlarmSteps s (stopProgram p t) := by
  have stopped := (h.onProg p Program.stopped).gain (.membershipEvent p _)
  unfold Machine.stopProgram
  dsimp only
  split
  · exact stopped.endStopFade p
  · exact stopped

theorem restartProgram (p : ProgId) (h : AlarmSteps s t) : AlarmSteps s (restartProgram p t) :=
  (((h.onProg p _).setProgCond ..).startDelay p).gain (.membershipEvent p _)

theorem keepSet (p : ProgId) (c : SwapCause) (h : AlarmSteps s t) : AlarmSteps s (keepSet p c t) :=
  (h.onProg p _).judgeNoSource p

theorem changeSet (p : ProgId) (l : List Rank) (c : SwapCause) (h : AlarmSteps s t) : AlarmSteps s (changeSet p l c t) := by
  unfold Machine.changeSet sourceChanged
  dsimp only
  exact ((((h.onProg p _).recomputeDelay p).judgeOnBackup p).judgeNoSource p).pushNotice ..

theorem failoverSwitch (p : ProgId) (c : SwapCause) (h : AlarmSteps s t) : AlarmSteps s (failoverSwitch p c t) := by
  unfold Machine.failoverSwitch
  dsimp only
  split
  · exact h.keepSet p c
  · split
    · exact h.keepSet p c
    · exact h.changeSet p _ c

theorem swapSwitch (p : ProgId) (h : AlarmSteps s t) : AlarmSteps s (swapSwitch p t) := by
  unfold Machine.swapSwitch
  split
  · unfold returnSwitch
    dsimp only
    split
    · exact h.changeSet ..
    · exact h.failoverSwitch ..
  · split
    · unfold selectSwitch
      dsimp only
      split
      · exact (h.setMark ..).changeSet ..
      · exact (h.setMark ..).failoverSwitch ..
    · exact h.failoverSwitch ..
  all_goals exact h.failoverSwitch ..

/-! ### A block close -/

theorem activateSettings (p : ProgId) (h : AlarmSteps s t) : AlarmSteps s (activateSettings p t) := by
  unfold Machine.activateSettings
  dsimp only
  split
  · exact (h.onProg p _).setProgCond ..
  · exact h.onProg p _

theorem silenceStep (p : ProgId) (h : AlarmSteps s t) : AlarmSteps s (silenceStep p t) := by
  unfold Machine.silenceStep
  dsimp only
  repeat' split
  · exact h
  · exact h
  · exact (h.onProg p _).setProgCond ..
  · exact (h.onProg p _).setProgCond ..
  · exact h.onProg p _

theorem closeController (p : ProgId) (h : AlarmSteps s t) : AlarmSteps s (closeController p t) := by
  unfold Machine.closeController closeMeasured closeUnmeasured
  dsimp only
  split
  · exact (((h.activateSettings p).onProg p _).silenceStep p).onProg p _
  · exact (h.activateSettings p).onProg p _

theorem judgeLevels (formed : Bool) (p : ProgId) (h : AlarmSteps s t) : AlarmSteps s (judgeLevels formed p t) := by
  have ceiling : AlarmSteps s (judgeCeiling p t) := (h.onProg p _).setProgCond ..
  unfold Machine.judgeLevels judgeOverLevel
  dsimp only
  repeat' split
  · exact ceiling
  · exact ceiling.setProgCond ..
  · exact ceiling
  · exact h

theorem closeReturn (apart : Bool) (p : ProgId) (h : AlarmSteps s t) : AlarmSteps s (closeReturn apart p t) := by
  have counted : AlarmSteps s (countReturn p t) := by
    unfold countReturn
    dsimp only
    split
    · split <;> exact h.onProg p _
    · exact h.onProg p _
  unfold Machine.closeReturn beginReturn
  dsimp only
  repeat' split
  · exact counted
  · exact counted.onProg p _
  · exact counted

theorem closeAlarm (apart : Bool) (e : EntryId) (h : AlarmSteps s t) : AlarmSteps s (closeAlarm apart e t) := by
  unfold Machine.closeAlarm
  dsimp only
  split
  · exact h.count e
  · exact ((h.count e).expireRaise e).expireClear e

theorem closeWork (o : CloseOrder) (formed : ProgId → Bool) (w : CloseWork) (h : AlarmSteps s t) :
    AlarmSteps s (closeWork o formed w t) := by
  cases w with
  | slip f => exact h.setFeedCond ..
  | measure p => exact h.closeController p
  | levels => exact .forEach (fun p _ h => h.judgeLevels _ p) _ (.forEach (fun p _ h => h.onProg p _) _ h)
  | alarm e => exact h.closeAlarm ..
  | returns p => exact h.closeReturn ..

theorem blockClose (o : CloseOrder) (h : AlarmSteps s t) : AlarmSteps s (blockClose o t) :=
  .forEach (fun w _ h => h.closeWork o _ w) _
    (h.other (u := { t with blockCounter := t.blockCounter + 1, sampleInBlock := 0 }) rfl rfl (.same rfl rfl))

end AlarmSteps

/-! ## Every effect of a command -/

/-- An effect of a command on the alarm table is a sequence of these kinds of change, or one of the four that write
entries themselves. -/
inductive AlarmWork (s : State) : State → Prop
  | steps {t} (h : AlarmSteps s t) : AlarmWork s t
  | storeEntryConfig {e} (c : EntryConfig) (legal : c.action = .failover → failoverLegal e = true)
      (up : c.raiseDelay ≤ 255) (down : c.clearDelay ≤ 255) : AlarmWork s (storeEntryConfig e c s)
  | acknowledge (es) : AlarmWork s (forEach es (fun e t => t.setEntry e (t.entry e).acked) s)
  | unitRestart : AlarmWork s (unitRestart s)
  | leaveReset (u b) : AlarmWork s (leaveReset u b s)

theorem Work.alarmWork {s t : State} (h : Work s t) : AlarmWork s t := by
  have here : AlarmSteps s s := .refl
  cases h with
  | none => exact .steps here
  | storeFeedConfig f en ex par val =>
    exact .steps (.feedSteps (storeFeedConfig_steps f en ex par val s) (here.setFeed f _))
  | clearFeedCounters f => exact .steps (here.setFeed f _)
  | defineProgram c ws _ => exact .steps (here.defineProgram ..)
  | clearProgram _ => exact .steps (here.clearProgram _)
  | storeSet l _ => exact .steps ((here.onProg _ _).eligibilityEvent _)
  | startProgram _ _ _ => exact .steps (here.startProgram _)
  | stopProgram _ => exact .steps (here.stopProgram _)
  | restartProgram _ => exact .steps (here.restartProgram _)
  | selectCurrent _ _ _ => exact .steps ((here.onProg _ _).setMark ..)
  | beginSelect _ => exact .steps (here.onProg ..)
  | storeFailover auto hold reset => exact .steps (here.onProg ..)
  | storeLoud mode body link _ => exact .steps (here.onProg ..)
  | restartMeasurement p => exact .steps ((here.onProg p _).setProgCond ..)
  | rebuildChain P _ _ => exact .steps (here.other rfl rfl (.same rfl rfl))
  | storeTarget p ltgt slew n => exact .steps ((here.onProg p _).recomputeDelay p)
  | storeEntryConfig c legal up down => exact .storeEntryConfig c legal up down
  | acknowledge es => exact .acknowledge es
  | frameEdge f first => exact .steps (.feedSteps (FeedSteps.refl.frameEdge first) here)
  | subframeReceived f w => exact .steps (.feedSteps (FeedSteps.refl.subframeReceived w) here)
  | declareLoss first _ => exact .steps (.feedSteps (FeedSteps.refl.declareLoss first) here)
  | outputSample => exact .steps here.outputSample
  | passTicks n => exact .steps (here.passTicks n)
  | endStartFade p => exact .steps (here.onProg ..)
  | endStopFade _ => exact .steps (here.endStopFade _)
  | swapSwitch _ => exact .steps (here.swapSwitch _)
  | endSwap p => exact .steps (here.onProg ..)
  | blockClose o => exact .steps (here.blockClose o)
  | silenceTimeout _ => exact .steps (here.setProgCond ..)
  | beginReturn p =>
    refine .steps ?_
    unfold Machine.beginReturn
    split
    · exact here.onProg ..
    · exact here
  | slewComplete _ => exact .steps (here.slewComplete _)
  | cutJump p => exact .steps (here.onProg ..)
  | cutInEnd p => exact .steps (here.cutInEnd p)
  | expireRaise e => exact .steps (here.expireRaise e)
  | expireClear e => exact .steps (here.expireClear e)
  | refEdge => exact .steps (.setCond _ _ (here.other rfl rfl (.same rfl rfl)))
  | loseRef => exact .steps (.setCond _ _ (here.other rfl rfl (.same rfl rfl)))
  | unitRestart => exact .unitRestart
  | leaveReset u b => exact .leaveReset u b

theorem storeEntryConfig_steps (e : EntryId) (c : EntryConfig) (s : State) :
    AlarmSteps (s.setEntry e ((s.entry e).configured c)) (storeEntryConfig e c s) := by
  unfold storeEntryConfig
  dsimp only
  split
  · split
    · exact AlarmSteps.refl.judgeHealth _
    · exact .refl
    · exact .refl
  · exact .refl

theorem setEntry_entryLaw {s : State} {e : EntryId} {x : Entry} (law : EntryLaw s) (own : x.Lawful e (s.cond e)) :
    EntryLaw (s.setEntry e x) := fun d => by
  rw [State.setEntry_entry]
  by_cases hd : d = e
  · subst hd
    rw [if_pos rfl]
    exact own
  · rw [if_neg hd]
    exact law d

theorem defaultConfig_bounds (e : EntryId) : (defaultConfig e).raiseDelay ≤ 255 ∧ (defaultConfig e).clearDelay ≤ 255 ∧
    ((defaultConfig e).action = .failover → failoverLegal e = true) := by
  revert e; decide

theorem AlarmWork.entryLaw {s t : State} (h : AlarmWork s t) (law : EntryLaw s) : EntryLaw t := by
  cases h with
  | steps h => exact h.entryLaw law
  | @storeEntryConfig e c legal up down =>
    have own : (s.entry e).Lawful e (s.cond e) := law e
    exact (storeEntryConfig_steps e c s).entryLaw (setEntry_entryLaw law (own.configured legal up down))
  | acknowledge es =>
    refine forEach_induction (P := EntryLaw) (fun e u law => ?_) es s law
    have own : (u.entry e).Lawful e (u.cond e) := law e
    exact setEntry_entryLaw law own.acked
  | unitRestart =>
    refine (entryLaw_iff _).2 fun e => ?_
    have own : (s.entry e).Lawful e (s.cond e) := law e
    rw [unitRestart_entry, unitRestart_cond]
    exact own.restarted
  | leaveReset u b =>
    refine (entryLaw_iff _).2 fun e => ?_
    obtain ⟨up, down, legal⟩ := defaultConfig_bounds e
    rw [leaveReset_entry, leaveReset_cond]
    exact ⟨by simp, fun _ => rfl, Nat.zero_le _, up, down, Nat.zero_le _, fun _ => rfl, legal⟩

theorem SameUnit.entryLaw {s t : State} (h : SameUnit s t) (law : EntryLaw s) : EntryLaw t := by
  intro e
  rw [State.entry_congr h.entries, State.cond_congr h.conds]
  exact law e

theorem step_entryLaw {s t : State} (law : EntryLaw s) (h : step s = .next t) : EntryLaw t :=
  step_keeps (fun _ _ same => same.entryLaw) (fun _ _ w => w.alarmWork.entryLaw) law h

/-! ## The Notice Queue (R153) -/

theorem AlarmWork.queueLaw {s t : State} (h : AlarmWork s t) (law : QueueLaw s) : QueueLaw t := by
  cases h with
  | steps h => exact h.queueLaw law
  | @storeEntryConfig e c _ _ _ => exact (storeEntryConfig_steps e c s).queueLaw law
  | acknowledge es =>
    refine forEach_induction (P := QueueLaw) (fun e u law => ?_) es s law
    exact law
  | unitRestart =>
    unfold Machine.unitRestart
    exact pushNotice_queueLaw (Nat.zero_le _) _ _ _
  | leaveReset u b => exact Nat.zero_le _

theorem step_queueLaw {s t : State} (law : QueueLaw s) (h : step s = .next t) : QueueLaw t :=
  step_keeps (fun _ _ same law => same.notices.trans law) (fun _ _ w => w.alarmWork.queueLaw) law h

end Sys2Proof.Machine
end

section
/-! PROOFS. What leaves every feed as it stands with its conditions and entries (`FeedsSame`), the effects that do not
(`FeedWork`), and the law of the feeds: conditions follow ports and converters (R5, R10, R23, R28, R33, R37). -/
namespace Sys2Proof.Machine

/-! ## What leaves the feeds as they stand -/

/-- Two states hold the same feeds, with their conditions and alarm entries. -/
structure FeedsSame (s t : State) : Prop where
  feeds : t.feeds = s.feeds
  cond : ∀ f k, t.feedCond f k = s.feedCond f k
  entry : ∀ f k, t.entry (feedEntry f k) = s.entry (feedEntry f k)

namespace FeedsSame

variable {s t : State}

theorem refl (s : State) : FeedsSame s s := ⟨rfl, fun _ _ => rfl, fun _ _ => rfl⟩

theorem trans {a b c : State} (h : FeedsSame a b) (g : FeedsSame b c) : FeedsSame a c :=
  ⟨g.feeds.trans h.feeds, fun f k => (g.cond f k).trans (h.cond f k), fun f k => (g.entry f k).trans (h.entry f k)⟩

theorem feed (h : FeedsSame s t) (f : FeedId) : t.feed f = s.feed f := State.feed_congr h.feeds f

theorem other {u : State} (h : FeedsSame s t) (feeds : u.feeds = t.feeds) (conds : u.conds = t.conds)
    (entries : u.entries = t.entries) : FeedsSame s u :=
  h.trans ⟨feeds, fun _ _ => State.cond_congr conds _, fun _ _ => State.entry_congr entries _⟩

theorem setProg (p : ProgId) (x : Program) (h : FeedsSame s t) : FeedsSame s (t.setProg p x) := h.other rfl rfl rfl

theorem onProg (p : ProgId) (g : Program → Program) (h : FeedsSame s t) : FeedsSame s (t.onProg p g) := h.setProg p _

/-- The work of one program leaves the feeds. -/
theorem prog {u : State} {p : ProgId} (h : FeedsSame s t) (w : ProgEffect p t u) : FeedsSame s u :=
  h.trans ⟨w.feeds, fun f k => w.cond _ fun l => feedEntry_ne_progEntry f k p l,
    fun f k => w.entry _ fun l => feedEntry_ne_progEntry f k p l⟩

theorem gain {u : State} (h : FeedsSame s t) (w : GainEffect t u) : FeedsSame s u :=
  h.other (by rw [w.rest]) (by rw [w.rest]) (by rw [w.rest])

theorem pushNotice (k : NoticeKind) (src : Source) (d : List Byte) (h : FeedsSame s t) :
    FeedsSame s (pushNotice k src d t) := h.prog (ProgEffect.pushNotice 0 k src d t)

theorem forEach {α : Type} {f : α → State → State} (each : ∀ x t, FeedsSame s t → FeedsSame s (f x t)) (l : List α)
    (h : FeedsSame s t) : FeedsSame s (Machine.forEach l f t) := forEach_induction each l t h

theorem setProgCond (p : ProgId) (k : ProgCond) (v : Bool) (h : FeedsSame s t) : FeedsSame s (setProgCond p k v t) := by
  by_cases hk : k = .silence
  · subst hk; exact h.prog (.setSilence p v t)
  · exact h.prog (.setProgCond hk p v t)

theorem clearMeasureConds (p : ProgId) (h : FeedsSame s t) : FeedsSame s (clearMeasureConds p t) :=
  ((((h.setProgCond ..).setProgCond ..).setProgCond ..).setProgCond ..).setProgCond ..

theorem returnPages (p : ProgId) (h : FeedsSame s t) : FeedsSame s (returnPages p t) := h.other rfl rfl rfl

theorem endStopFade (p : ProgId) (h : FeedsSame s t) : FeedsSame s (endStopFade p t) :=
  ((((h.onProg p _).setProgCond ..).setProgCond ..).clearMeasureConds p).pushNotice ..

theorem stopProgram (p : ProgId) (h : FeedsSame s t) : FeedsSame s (stopProgram p t) := by
  have stopped := (h.onProg p Program.stopped).gain (.membershipEvent p _)
  unfold Machine.stopProgram
  dsimp only
  split
  · exact stopped.endStopFade p
  · exact stopped

theorem startProgram (p : ProgId) (h : FeedsSame s t) : FeedsSame s (startProgram p t) := by
  have started : FeedsSame s (startedState p t) :=
    (((h.onProg p _).prog (.judgeNoSource p _)).prog (.startDelay p _)).setProgCond ..
  rw [startProgram_eq]
  exact (((started.gain (.membershipEvent p _)).onProg p _).pushNotice ..).prog (.judgeOnBackup p _)

theorem restartProgram (p : ProgId) (h : FeedsSame s t) : FeedsSame s (restartProgram p t) :=
  (((h.onProg p _).setProgCond ..).prog (.startDelay p _)).gain (.membershipEvent p _)

theorem beginReturn (p : ProgId) (h : FeedsSame s t) : FeedsSame s (beginReturn p t) := by
  unfold Machine.beginReturn
  split
  · exact h.onProg p _
  · exact h

/-- The condition of the house reference hands nothing to a feed. -/
theorem setHouseRef (v : Bool) (h : FeedsSame s t) : FeedsSame s (setCond houseRefEntry v t) := by
  have quiet : setCond houseRefEntry v t = (follow houseRefEntry v t).1 := by
    unfold setCond handOver
    split
    · cases (follow houseRefEntry v t).2 <;> rfl
    · rfl
  have apart (f : FeedId) (k : FeedCond) : feedEntry f k ≠ houseRefEntry := by
    revert f; cases k <;> decide
  have effect := EntryEffect.follow houseRefEntry v t
  rw [quiet]
  refine h.trans ⟨effect.feeds, fun f k => ?_, fun f k => effect.entry _ (apart f k)⟩
  unfold State.feedCond
  rw [follow_cond, if_neg (apart f k)]

end FeedsSame

/-- What follows from a converter that has changed leaves the feeds (R27). -/
theorem changeConverter_feedsSame (f : FeedId) (c : Converter) (s : State) :
    FeedsSame (setFeedCond f .srcUnlocked (c.state == .track) (s.setFeed f { s.feed f with conv := c }))
      (changeConverter f c s) := by
  unfold changeConverter
  dsimp only
  split
  · exact .refl _
  · refine .forEach (fun p u h => ?_) _ ((FeedsSame.refl _).pushNotice ..)
    unfold realign
    split
    · exact h.prog (.recomputeDelay p u)
    · exact h

/-- An effect of a command leaves every feed as it stands, or is one of these. -/
inductive FeedWork (s : State) : State → Prop
  | same {t} (h : FeedsSame s t) : FeedWork s t
  | storeFeedConfig (f en ex par val) : FeedWork s (storeFeedConfig f en ex par val s)
  | clearFeedCounters (f) : FeedWork s (clearFeedCounters f s)
  | storeEntryConfig (e c) : FeedWork s (storeEntryConfig e c s)
  | acknowledge (es) : FeedWork s (forEach es (fun e t => t.setEntry e (t.entry e).acked) s)
  | frameEdge (f first) : FeedWork s (frameEdge f first s)
  | subframeReceived (f w) : FeedWork s (subframeReceived f w s)
  | declareLoss {f} (first) (due : lossIsDue s f = true) : FeedWork s (declareLoss f first s)
  | outputSample : FeedWork s (outputSample s)
  | passTicks (n) : FeedWork s (passTicks n s)
  | blockClose (o) : FeedWork s (blockClose o s)
  | expireRaise (e) : FeedWork s (expireRaise e s)
  | expireClear (e) : FeedWork s (expireClear e s)
  | unitRestart : FeedWork s (unitRestart s)
  | leaveReset (u b) : FeedWork s (leaveReset u b s)

theorem Work.feedWork {s t : State} (h : Work s t) : FeedWork s t := by
  have here : FeedsSame s s := .refl s
  cases h with
  | none => exact .same here
  | storeFeedConfig f en ex par val => exact .storeFeedConfig f en ex par val
  | clearFeedCounters f => exact .clearFeedCounters f
  | defineProgram c ws _ => exact .same (((here.returnPages _).onProg _ _).clearMeasureConds _)
  | clearProgram _ => exact .same ((((here.returnPages _).onProg _ _).setProgCond ..).setProgCond ..)
  | storeSet l _ => exact .same ((here.onProg _ _).prog (.eligibilityEvent _ _))
  | startProgram _ _ _ => exact .same (here.startProgram _)
  | stopProgram _ => exact .same (here.stopProgram _)
  | restartProgram _ => exact .same (here.restartProgram _)
  | selectCurrent _ _ _ => exact .same ((here.onProg _ _).prog (.setMark ..))
  | beginSelect _ => exact .same (here.onProg ..)
  | storeFailover auto hold reset => exact .same (here.onProg ..)
  | storeLoud mode body link _ => exact .same (here.onProg ..)
  | restartMeasurement p => exact .same ((here.onProg p _).setProgCond ..)
  | rebuildChain P _ _ => exact .same (here.other rfl rfl rfl)
  | storeTarget p ltgt slew n => exact .same ((here.onProg p _).prog (.recomputeDelay p _))
  | storeEntryConfig c _ _ _ => exact .storeEntryConfig _ c
  | acknowledge es => exact .acknowledge es
  | frameEdge f first => exact .frameEdge f first
  | subframeReceived f w => exact .subframeReceived f w
  | declareLoss first due => exact .declareLoss first due
  | outputSample => exact .outputSample
  | passTicks n => exact .passTicks n
  | endStartFade p => exact .same (here.onProg ..)
  | endStopFade _ => exact .same (here.endStopFade _)
  | swapSwitch _ => exact .same (here.prog (.swapSwitch _ _))
  | endSwap p => exact .same (here.onProg ..)
  | blockClose o => exact .blockClose o
  | silenceTimeout _ => exact .same (here.setProgCond ..)
  | beginReturn p => exact .same (here.beginReturn p)
  | slewComplete _ => exact .same (here.prog (.slewComplete _ _))
  | cutJump p => exact .same (here.onProg ..)
  | cutInEnd p => exact .same (here.prog (.cutInEnd p _))
  | expireRaise e => exact .expireRaise e
  | expireClear e => exact .expireClear e
  | refEdge => exact .same (.setHouseRef _ (here.other rfl rfl rfl))
  | loseRef => exact .same (.setHouseRef _ (here.other rfl rfl rfl))
  | unitRestart => exact .unitRestart
  | leaveReset u b => exact .leaveReset u b

/-- A piece of a close's work leaves the feeds, but for SRC_SLIP made false and the alarm entries. -/
theorem closeWork_feeds (o : CloseOrder) (formed : ProgId → Bool) (w : CloseWork) (s : State) :
    FeedsSame s (closeWork o formed w s) ∨ (∃ f, closeWork o formed w s = setFeedCond f .srcSlip false s) ∨
      ∃ apart e, closeWork o formed w s = closeAlarm apart e s := by
  cases w with
  | slip f => exact .inr (.inl ⟨f, rfl⟩)
  | measure p => exact .inl ((FeedsSame.refl s).prog (.closeController p s))
  | levels =>
    exact .inl (.forEach (fun p t h => h.prog (.judgeLevels _ p t)) _
      (.forEach (fun p t h => h.onProg p _) _ (.refl s)))
  | alarm e => exact .inr (.inr ⟨_, e, rfl⟩)
  | returns p => exact .inl ((FeedsSame.refl s).prog (.closeReturn _ p s))

/-! ## The line of one feed: what its law reads -/

/-- What the law of a feed reads: enable, whether a channel is muted, the converter, and the five conditions. -/
structure Line where
  enable : Bool
  muted : Bool
  conv : Converter
  cond : FeedCond → Bool

/-- One condition of the feed takes a value. -/
def Line.set (l : Line) (k : FeedCond) (v : Bool) : Line := { l with cond := fun j => if j = k then v else l.cond j }

/-- The line of a feed. -/
def line (s : State) (f : FeedId) : Line :=
  ⟨(s.feed f).port.enable, (s.feed f).port.chA.muted || (s.feed f).port.chB.muted, (s.feed f).conv, s.feedCond f⟩

/-- The bounds of a converter's fields (R23, R28, R32, R33, R35). -/
structure Converter.Bounded (c : Converter) : Prop where
  fifo : c.fifo.length ≤ 32
  refill : c.refillWait = true → c.fifo.length < 16
  phase : c.phase < 2 ^ 20
  ratio : c.state = .track ∨ c.state = .locked → 692137 ≤ c.ratio ∧ c.ratio ≤ 2118226

/-- The law of one feed. -/
structure Line.Lawful (l : Line) : Prop where
  errors : l.cond .feedErrors = l.muted
  unlocked : l.cond .srcUnlocked = (l.conv.state == .track)
  off : l.enable = false → l.conv.state = .idle ∧ ∀ k, l.cond k = false
  on : l.enable = true → l.conv.state ≠ .idle
  bounded : l.conv.Bounded

theorem feedLaw_iff (s : State) : FeedLaw s ↔ ∀ f, (line s f).Lawful := by
  refine forall_congr' fun f => ⟨?_, ?_⟩
  · rintro ⟨errors, unlocked, off, on, fifo, refill, phase, ratio⟩
    refine ⟨Bool.eq_iff_iff.2 ?_, Bool.eq_iff_iff.2 ?_, off, on, fifo, refill, phase, ratio⟩
    · simpa [line] using errors
    · simpa [line] using unlocked
  · rintro ⟨errors, unlocked, off, on, fifo, refill, phase, ratio⟩
    refine ⟨?_, ?_, off, on, fifo, refill, phase, ratio⟩
    · simpa [line] using Bool.eq_iff_iff.1 errors
    · simpa [line] using Bool.eq_iff_iff.1 unlocked

/-- Every feed's line is as it stood. -/
def LinesSame (s t : State) : Prop := ∀ f, line t f = line s f

theorem LinesSame.law {s t : State} (h : LinesSame s t) (law : FeedLaw s) : FeedLaw t :=
  (feedLaw_iff t).2 fun f => by rw [h f]; exact (feedLaw_iff s).1 law f

theorem FeedsSame.linesSame {s t : State} (h : FeedsSame s t) : LinesSame s t := fun f => by
  simp only [line, h.feed f, Line.mk.injEq, true_and]
  exact funext (h.cond f)

theorem LinesSame.ofAlarm {s t : State} (h : AlarmEffect s t) : LinesSame s t := fun f => by
  have cond : t.feedCond f = s.feedCond f :=
    funext fun k => h.cond _ fun p => feedEntry_ne_progEntry f k p .noSource
  have port : (t.feed f).port = (s.feed f).port := by rw [h.feed f]
  have conv : (t.feed f).conv = (s.feed f).conv := by rw [h.feed f]
  unfold line
  rw [port, conv, cond]

/-- One feed's line has changed, and no other. -/
structure Lines (f : FeedId) (l : Line) (s t : State) : Prop where
  own : line t f = l
  others : ∀ g, g ≠ f → line t g = line s g

namespace Lines

variable {f : FeedId} {l m : Line} {s t u : State}

theorem refl (f : FeedId) (s : State) : Lines f (line s f) s s := ⟨rfl, fun _ _ => rfl⟩

theorem same (h : Lines f l s t) (g : LinesSame t u) : Lines f l s u :=
  ⟨(g f).trans h.own, fun q hq => (g q).trans (h.others q hq)⟩

theorem cast (h : Lines f l s t) (e : l = m) : Lines f m s t := e ▸ h

/-- The law holds where the changed line is lawful and the others were. -/
theorem law (h : Lines f l s t) (others : ∀ g, g ≠ f → (line s g).Lawful) (own : l.Lawful) : FeedLaw t :=
  (feedLaw_iff t).2 fun g => by
    by_cases hg : g = f
    · subst hg; rw [h.own]; exact own
    · rw [h.others g hg]; exact others g hg

theorem setFeed (h : Lines f l s t) (x : Feed) : Lines f
    { l with enable := x.port.enable, muted := x.port.chA.muted || x.port.chB.muted, conv := x.conv } s
    (t.setFeed f x) := by
  refine ⟨?_, fun g hg => ?_⟩
  · rw [← h.own]
    simp only [line, State.setFeed_feed_self]
    rfl
  · rw [← h.others g hg]
    simp only [line, State.setFeed_feed_ne hg]
    rfl

/-- A change of the port that touches neither enable nor a mute. -/
theorem port (h : Lines f l s t) (g : Port → Port) (enable : ∀ q, (g q).enable = q.enable)
    (a : ∀ q, (g q).chA.muted = q.chA.muted) (b : ∀ q, (g q).chB.muted = q.chB.muted) : Lines f l s (t.onPort f g) := by
  refine (h.setFeed { t.feed f with port := g (t.feed f).port }).cast ?_
  dsimp only
  rw [enable, a, b, ← h.own]
  rfl

theorem setCond (h : Lines f l s t) (k : FeedCond) (v : Bool) :
    Lines f (l.set k v) s (setFeedCond f k v t) := by
  have port (g : FeedId) : ((setFeedCond f k v t).feed g).port = (t.feed g).port := by
    rw [(setFeedCond_effect f k v t).feed g]; rfl
  have conv (g : FeedId) : ((setFeedCond f k v t).feed g).conv = (t.feed g).conv := by
    rw [(setFeedCond_effect f k v t).feed g]; rfl
  refine ⟨?_, fun g hg => ?_⟩
  · rw [← h.own]
    simp only [line, Line.set, port f, conv f, Line.mk.injEq, true_and]
    funext j
    simp [setFeedCond_feedCond]
  · rw [← h.others g hg]
    simp only [line, port g, conv g, Line.mk.injEq, true_and]
    funext j
    rw [setFeedCond_feedCond, if_neg fun e => hg e.1]

/-- The converter takes a new value, and SRC_UNLOCKED follows it (R37). -/
theorem changeConverter (h : Lines f l s t) (c : Converter) :
    Lines f (Line.set { l with conv := c } .srcUnlocked (c.state == .track)) s (changeConverter f c t) := by
  have changed := (h.setFeed { t.feed f with conv := c }).setCond .srcUnlocked (c.state == .track)
  have kept : (t.feed f).port.enable = l.enable ∧
      ((t.feed f).port.chA.muted || (t.feed f).port.chB.muted) = l.muted := by rw [← h.own]; exact ⟨rfl, rfl⟩
  have changed := changed.cast (m := Line.set { l with conv := c } .srcUnlocked (c.state == .track))
    (by simp [kept.1, kept.2])
  exact changed.same (changeConverter_feedsSame f c t).linesSame

/-- The converter takes a value, and a slip sets SRC_SLIP (R36). -/
theorem keepConverter (h : Lines f l s t) (r : Converter × Bool) :
    Lines f (if r.2 then Line.set { l with conv := r.1 } .srcSlip true else { l with conv := r.1 }) s
      (keepConverter f r t) := by
  have kept : (t.feed f).port.enable = l.enable ∧
      ((t.feed f).port.chA.muted || (t.feed f).port.chB.muted) = l.muted := by rw [← h.own]; exact ⟨rfl, rfl⟩
  have changed := (h.setFeed { t.feed f with conv := r.1 }).cast (m := { l with conv := r.1 })
    (by simp [kept.1, kept.2])
  unfold Machine.keepConverter
  dsimp only
  cases r.2
  · exact changed
  · exact changed.setCond ..

end Lines

/-! ## Converters within their bounds -/

namespace Converter

variable {c : Converter}

theorem cleared_bounded (st : ConvState) (h : st = .idle ∨ st = .search) : (c.cleared st).Bounded := by
  refine ⟨Nat.zero_le _, fun h => by simp [cleared] at h, by simp [cleared], fun run => ?_⟩
  have state : (c.cleared st).state = st := rfl
  rw [state] at run
  obtain rfl | rfl := h <;> simp at run

theorem Bounded.takeFrame (h : c.Bounded) (fr : InFrame) : (c.takeFrame fr).1.Bounded := by
  have state : (c.takeFrame fr).1.state = c.state := by rw [takeFrame_kept]
  have phase : (c.takeFrame fr).1.phase = c.phase := by
    unfold Converter.takeFrame countSlip
    split
    · rfl
    · rfl
    · split <;> rfl
  have fifo : (c.takeFrame fr).1.fifo.length ≤ 32 ∧
      ((c.takeFrame fr).1.refillWait = true → (c.takeFrame fr).1.fifo.length < 16) := by
    obtain ⟨fifo, refill, -, -⟩ := h
    unfold Converter.takeFrame countSlip fill
    split
    · exact ⟨fifo, refill⟩
    · exact ⟨fifo, refill⟩
    · split
      · refine ⟨by simp only [List.length_drop]; omega, fun wait => ?_⟩
        have := refill wait
        omega
      · refine ⟨by simp only [List.length_append, List.length_singleton]; omega, fun wait => ?_⟩
        simp only [Bool.and_eq_true, decide_eq_true_eq] at wait
        simpa using wait.2
  exact ⟨fifo.1, fifo.2, by rw [phase]; exact h.phase,
    by rw [state, (c.takeFrame_kept fr).ratio]; exact h.ratio⟩

theorem consume_fifo (k : Nat) (c : Converter) : (consume k c).1.fifo.length ≤ c.fifo.length ∧
    (consume k c).1.phase = c.phase ∧ ((consume k c).1.refillWait = true →
      c.refillWait = true ∨ (consume k c).1.fifo = []) := by
  induction k generalizing c with
  | zero => exact ⟨le_rfl, rfl, .inl⟩
  | succ k ih =>
    unfold consume
    split
    · next fr rest eq =>
      obtain ⟨len, phase, wait⟩ := ih (({ c with fifo := rest, lastConsumed := some fr } : Converter).remember fr)
      refine ⟨len.trans ?_, phase, wait⟩
      rw [eq]
      exact Nat.le_succ _
    · next eq => exact ⟨le_rfl, rfl, fun _ => .inr eq⟩

theorem Bounded.advance (h : c.Bounded) : c.advance.1.Bounded := by
  have state : c.advance.1.state = c.state := by rw [advance_kept]
  have ratio : c.advance.1.state = .track ∨ c.advance.1.state = .locked →
      692137 ≤ c.advance.1.ratio ∧ c.advance.1.ratio ≤ 2118226 := by
    rw [state, c.advance_kept.ratio]; exact h.ratio
  suffices c.advance.1.fifo.length ≤ 32 ∧ (c.advance.1.refillWait = true → c.advance.1.fifo.length < 16) ∧
      c.advance.1.phase < 2 ^ 20 from ⟨this.1, this.2.1, this.2.2, ratio⟩
  unfold Converter.advance
  split
  · exact ⟨h.fifo, h.refill, h.phase⟩
  · exact ⟨h.fifo, h.refill, h.phase⟩
  · split
    · exact ⟨h.fifo, h.refill, h.phase⟩
    · next runs =>
      dsimp only
      obtain ⟨len, phase, wait⟩ := consume_fifo ((c.phase + c.stepUsed) / 2 ^ 20)
        { c with phase := (c.phase + c.stepUsed) % 2 ^ 20 }
      refine ⟨len.trans h.fifo, fun w => ?_, ?_⟩
      · obtain held | empty := wait w
        · exact absurd held runs
        · rw [empty]; exact Nat.zero_lt_succ _
      · rw [phase]
        exact Nat.mod_lt _ (by decide)

/-- A converter that slips is in TRACK or LOCKED. -/
theorem takeFrame_idle (h : c.state = .idle) (fr : InFrame) : (c.takeFrame fr).2 = false := by simp [takeFrame, h]

theorem advance_idle (h : c.state = .idle) : c.advance.2 = false := by simp [advance, h]

theorem lockTest_idle_iff (c : Converter) (d : Nat) : (c.lockTest d).state = .idle ↔ c.state = .idle := by
  unfold lockTest
  split
  · split
    · split <;> simp [*]
    · simp [*]
  · split
    · simp [*]
    · split <;> simp [*]
  · rfl
  · rfl

end Converter

/-- The verdict on a span names a class whose window holds it (R16). -/
theorem spanVerdict_window {expected : Option RateClass} {sp : Span} {k : RateClass}
    (h : spanVerdict expected sp = some k) : 16221 ≤ sp.ticks ∧ sp.ticks ≤ 49643 := by
  unfold spanVerdict at h
  split at h
  · simp at h
  · have found := List.find?_some h
    simp only [RateClass.matches, Bool.and_eq_true, decide_eq_true_eq] at found
    obtain ⟨⟨-, low⟩, high⟩ := found
    cases k <;> simp only [RateClass.window] at low high <;> omega

/-- A span leaves a converter that has left IDLE out of it, and within its bounds (R24 to R31). -/
theorem Converter.Bounded.takeSpan {c : Converter} (h : c.Bounded) (on : c.state ≠ .idle) {expected : Option RateClass}
    {sp : Span} : (c.takeSpan sp.ticks (spanVerdict expected sp)).Bounded ∧
      (c.takeSpan sp.ticks (spanVerdict expected sp)).state ≠ .idle := by
  cases verdict : spanVerdict expected sp with
  | none =>
    cases state : c.state with
    | idle => exact absurd state on
    | search => rw [Converter.takeSpan_search_none _ state]; exact ⟨h, on⟩
    | track | locked =>
      rw [Converter.takeSpan_lost _ (by simp [state])]
      exact ⟨Converter.cleared_bounded _ (.inr rfl), by simp [Converter.enterSearch, Converter.cleared]⟩
  | some k =>
    obtain ⟨low, high⟩ := spanVerdict_window verdict
    have least := le_stepOf (S := sp.ticks) (by omega) high
    have most := stepOf_le low
    by_cases held : (c.state = .track ∨ c.state = .locked) ∧ c.cls = some k
    · obtain ⟨run, cls⟩ := held
      obtain ⟨rlow, rhigh⟩ := h.ratio run
      have between := min_le_updatedRatio c.ratio (stepOf sp.ticks)
      have below := updatedRatio_le_max c.ratio (stepOf sp.ticks)
      rw [Converter.takeSpan_held _ run cls, Converter.heldSpan_eq]
      refine ⟨⟨h.fifo, h.refill, h.phase, fun _ => ?_⟩, fun idle => on ((c.lockTest_idle_iff _).1 idle)⟩
      dsimp only
      omega
    · have fresh : c.state = .search ∨ c.cls ≠ some k := by
        cases state : c.state with
        | idle => exact absurd state on
        | search => exact .inl rfl
        | track | locked => exact .inr fun cls => held ⟨by simp [state], cls⟩
      rw [Converter.takeSpan_newClass _ on fresh]
      exact ⟨⟨Nat.zero_le _, fun _ => Nat.zero_lt_succ _, Nat.two_pow_pos 20, fun _ => ⟨least, most⟩⟩,
        by simp [Converter.setClass]⟩

/-! ## The work of a feed -/

namespace Line.Lawful

variable {l : Line}

/-- An enabled feed takes another condition than FEED_ERRORS and SRC_UNLOCKED. -/
theorem setCond (h : l.Lawful) (on : l.enable = true) {k : FeedCond} (errors : k ≠ .feedErrors)
    (unlocked : k ≠ .srcUnlocked) (v : Bool) : (l.set k v).Lawful where
  errors := (if_neg errors.symm).trans h.errors
  unlocked := (if_neg unlocked.symm).trans h.unlocked
  off off := absurd (on.symm.trans off) (by decide)
  on := h.on
  bounded := h.bounded

/-- A condition made false, whatever the enable. -/
theorem clearCond (h : l.Lawful) {k : FeedCond} (errors : k ≠ .feedErrors) (unlocked : k ≠ .srcUnlocked) :
    (l.set k false).Lawful where
  errors := (if_neg errors.symm).trans h.errors
  unlocked := (if_neg unlocked.symm).trans h.unlocked
  off off := by
    obtain ⟨idle, conds⟩ := h.off off
    exact ⟨idle, fun j => by simp [Line.set, conds]⟩
  on := h.on
  bounded := h.bounded

/-- FEED_ERRORS judged again with the channels as they are (R10). -/
theorem judgeErrors (h : l.Lawful) (on : l.enable = true) (m : Bool) :
    (Line.set { l with muted := m } .feedErrors m).Lawful where
  errors := rfl
  unlocked := h.unlocked
  off off := absurd (on.symm.trans off) (by decide)
  on := h.on
  bounded := h.bounded

/-- The converter of an enabled feed takes another value, with SRC_UNLOCKED. -/
theorem changeConverter (h : l.Lawful) (on : l.enable = true) {c : Converter} (state : c.state ≠ .idle)
    (bounded : c.Bounded) : (Line.set { l with conv := c } .srcUnlocked (c.state == .track)).Lawful where
  errors := h.errors
  unlocked := rfl
  off off := absurd (on.symm.trans off) (by decide)
  on _ := state
  bounded := bounded

/-- The converter takes a value with its state as it was, which slips in no IDLE (R36). -/
theorem keepConverter (h : l.Lawful) {r : Converter × Bool} (state : r.1.state = l.conv.state) (bounded : r.1.Bounded)
    (idle : l.conv.state = .idle → r.2 = false) :
    (if r.2 then Line.set { l with conv := r.1 } .srcSlip true else { l with conv := r.1 } : Line).Lawful := by
  have kept : ({ l with conv := r.1 } : Line).Lawful :=
    ⟨h.errors, by rw [state]; exact h.unlocked, by rw [state]; exact h.off, by rw [state]; exact h.on, bounded⟩
  split
  · next slip =>
    refine kept.setCond (Bool.not_eq_false _ ▸ fun off => ?_) (by decide) (by decide) true
    rw [idle (h.off off).1] at slip
    cases slip
  · exact kept

/-- The converter with its counter at 0. -/
theorem uncounted (h : l.Lawful) : ({ l with conv := { l.conv with slipCount := 0 } } : Line).Lawful :=
  ⟨h.errors, h.unlocked, h.off, h.on, h.bounded.fifo, h.bounded.refill, h.bounded.phase, h.bounded.ratio⟩

end Line.Lawful

/-- The law holds of a feed in a state reached from s, which leaves the other feeds' lines and this one's enable. -/
structure LineKept (f : FeedId) (s t : State) : Prop where
  own : (line t f).Lawful
  enable : (line t f).enable = (line s f).enable
  others : ∀ g, g ≠ f → line t g = line s g

namespace LineKept

variable {f : FeedId} {s t : State}

theorem ofLines {l : Line} (h : Lines f l s t) (own : l.Lawful) (enable : l.enable = (line s f).enable) :
    LineKept f s t := ⟨by rw [h.own]; exact own, by rw [h.own]; exact enable, h.others⟩

theorem refl (law : FeedLaw s) (f : FeedId) : LineKept f s s := ⟨(feedLaw_iff s).1 law f, rfl, fun _ _ => rfl⟩

theorem lines (h : LineKept f s t) : Lines f (line t f) s t := ⟨rfl, h.others⟩

theorem law (h : LineKept f s t) (law : FeedLaw s) : FeedLaw t :=
  h.lines.law (fun g _ => (feedLaw_iff s).1 law g) h.own

theorem port (h : LineKept f s t) (g : Port → Port) (enable : ∀ q, (g q).enable = q.enable)
    (a : ∀ q, (g q).chA.muted = q.chA.muted) (b : ∀ q, (g q).chB.muted = q.chB.muted) : LineKept f s (t.onPort f g) :=
  ofLines (h.lines.port g enable a b) h.own h.enable

variable (on : (line s f).enable = true)
include on

theorem setCond (h : LineKept f s t) {k : FeedCond} (errors : k ≠ .feedErrors) (unlocked : k ≠ .srcUnlocked) (v : Bool) :
    LineKept f s (setFeedCond f k v t) :=
  ofLines (h.lines.setCond k v) (h.own.setCond (h.enable.trans on) errors unlocked v) h.enable

/-- The channels take new records, and FEED_ERRORS is judged. -/
theorem judged (h : LineKept f s t) (g : Port → Port) (enable : ∀ q, (g q).enable = q.enable) :
    LineKept f s (judgeFeedErrors f (t.onPort f g)) := by
  have changed := (h.lines.setFeed { t.feed f with port := g (t.feed f).port }).setCond .feedErrors
    ((g (t.feed f).port).chA.muted || (g (t.feed f).port).chB.muted)
  have after : (t.onPort f g).feed f = { t.feed f with port := g (t.feed f).port } := State.setFeed_feed_self ..
  unfold judgeFeedErrors
  rw [after]
  dsimp only
  refine ofLines (changed.cast ?_)
    (h.own.judgeErrors (h.enable.trans on) ((g (t.feed f).port).chA.muted || (g (t.feed f).port).chB.muted)) h.enable
  dsimp only
  rw [enable]
  rfl

theorem changeConverter (h : LineKept f s t) {c : Converter} (state : c.state ≠ .idle) (bounded : c.Bounded) :
    LineKept f s (changeConverter f c t) :=
  ofLines (h.lines.changeConverter c) (h.own.changeConverter (h.enable.trans on) state bounded) h.enable

omit on in
theorem handFrame (h : LineKept f s t) (fr : InFrame) : LineKept f s (handFrame f fr t) :=
  ofLines (h.lines.keepConverter _)
    (h.own.keepConverter (by rw [Converter.takeFrame_kept]; rfl) (h.own.bounded.takeFrame fr)
      fun idle => Converter.takeFrame_idle idle fr) (by split <;> exact h.enable)

theorem takeSubframeA (h : LineKept f s t) (w : Option (BitVec 32)) : LineKept f s (takeSubframeA f w t) :=
  h.judged on _ fun _ => rfl

theorem takeSubframeB (h : LineKept f s t) (a : Sample) (w : Option (BitVec 32)) :
    LineKept f s (takeSubframeB f a w t) := by
  unfold Machine.takeSubframeB
  dsimp only
  refine LineKept.handFrame (LineKept.judged on h _ ?_) _
  exact fun _ => rfl

theorem endFrame (h : LineKept f s t) : LineKept f s (endFrame f t) := by
  unfold Machine.endFrame
  split
  · exact h
  · dsimp only
    split
    · exact (h.takeSubframeA on none).takeSubframeB on _ none
    · exact h.takeSubframeA on none
  · exact h.takeSubframeB on _ none
  · exact h

theorem yieldSpan (h : LineKept f s t) : LineKept f s (yieldSpan f t) := by
  unfold Machine.yieldSpan
  dsimp only
  have judged := (h.port (fun q => { q with
      lastSpan := some ⟨(t.feed f).port.spanCounter, (t.feed f).port.overflowMark⟩
      edgeCount := 0, spanCounter := 0, overflowMark := false }) (fun _ => rfl) (fun _ => rfl) (fun _ => rfl)).setCond on
    (k := .rateUnknown) (by decide) (by decide)
    (spanVerdict (t.feed f).port.expected ⟨(t.feed f).port.spanCounter, (t.feed f).port.overflowMark⟩).isNone
  obtain ⟨bounded, state⟩ := judged.own.bounded.takeSpan (judged.own.on (judged.enable.trans on))
    (expected := (t.feed f).port.expected) (sp := ⟨(t.feed f).port.spanCounter, (t.feed f).port.overflowMark⟩)
  exact judged.changeConverter on state bounded

theorem advanceSpan (h : LineKept f s t) : LineKept f s (advanceSpan f t) := by
  unfold Machine.advanceSpan
  dsimp only
  split
  · exact h.port _ (fun _ => rfl) (fun _ => rfl) fun _ => rfl
  · split
    · exact h.yieldSpan on
    · exact h.port _ (fun _ => rfl) (fun _ => rfl) fun _ => rfl

end LineKept

theorem frameEdge_feedLaw {s : State} (f : FeedId) (first : Bool) (law : FeedLaw s) : FeedLaw (frameEdge f first s) := by
  unfold frameEdge
  split
  · next on =>
    have on : (line s f).enable = true := on
    have lost : LineKept f s (endLoss f s) := (LineKept.refl law f).setCond on (by decide) (by decide) false
    have opened {u : State} (h : LineKept f s u) :
        FeedLaw ((restartLossTimer f u).onPort f fun q => { q with frame := .opened }) := by
      unfold restartLossTimer
      dsimp only
      refine LineKept.law (LineKept.port (LineKept.port h _ ?_ ?_ ?_) _ ?_ ?_ ?_) law <;> exact fun _ => rfl
    dsimp only
    split
    · exact opened ((lost.endFrame on).advanceSpan on)
    · exact opened ((lost.advanceSpan on).endFrame on)
  · exact law

theorem subframeReceived_feedLaw {s : State} (f : FeedId) (w : BitVec 32) (law : FeedLaw s) :
    FeedLaw (subframeReceived f w s) := by
  have here := LineKept.refl law f
  unfold subframeReceived
  split
  · next on =>
    split
    · exact law
    · exact (here.takeSubframeA on _).law law
    · exact (here.takeSubframeB on _ _).law law
    · exact law
  · exact law

/-- The line of a port whose channels are clean, and whose port conditions are then made false (R4, R13). -/
theorem Lines.clearPortConds {f : FeedId} {l : Line} {s t : State} (h : Lines f l s t) :
    Lines f (((l.set .feedLost false).set .rateUnknown false).set .feedErrors false) s (clearPortConds f t) := by
  unfold Machine.clearPortConds
  exact ((h.setCond ..).setCond ..).setCond ..

/-- The line after the converter has been told of the loss (R13, R22). -/
def Line.searching (l : Line) : Line :=
  if l.conv.state = .track ∨ l.conv.state = .locked then
    Line.set { l with conv := l.conv.enterSearch } .srcUnlocked false
  else l

theorem Lines.loseConverter {f : FeedId} {l : Line} {s t : State} (h : Lines f l s t) :
    Lines f l.searching s (loseConverter f t) := by
  have conv : (t.feed f).conv = l.conv := by rw [← h.own]; rfl
  unfold Machine.loseConverter Line.searching
  dsimp only
  rw [conv]
  split
  · exact h.changeConverter _
  · exact h

/-- The port's conditions of a loss: FEED_LOST true, RATE_UNKNOWN and FEED_ERRORS false (R13). -/
def Line.lossConds (l : Line) : Line := ((l.set .feedLost true).set .feedErrors false).set .rateUnknown false

/-- An enabled line that was lawful is so with its channels clean, told of the loss, and its conditions set, in either
order of the two (log 23). -/
theorem Line.Lawful.lost {l : Line} (h : l.Lawful) (on : l.enable = true) :
    (Line.lossConds { l with muted := false }).searching.Lawful ∧
      (Line.searching { l with muted := false }).lossConds.Lawful := by
  have search := Converter.cleared_bounded (c := l.conv) .search (.inr rfl)
  have off {p : Prop} (h : l.enable = false) : p := by rw [on] at h; cases h
  have left : l.conv.enterSearch.state ≠ .idle := by simp [Converter.enterSearch, Converter.cleared]
  by_cases run : l.conv.state = .track ∨ l.conv.state = .locked
  · have told (m : Line) (conv : m.conv = l.conv) :
        m.searching = Line.set { m with conv := m.conv.enterSearch } .srcUnlocked false :=
      if_pos (by rw [conv]; exact run)
    rw [told (Line.lossConds { l with muted := false }) rfl, told { l with muted := false } rfl]
    exact ⟨⟨rfl, rfl, off, fun _ => left, search⟩, ⟨rfl, rfl, off, fun _ => left, search⟩⟩
  · have untold (m : Line) (conv : m.conv = l.conv) : m.searching = m := if_neg (by rw [conv]; exact run)
    rw [untold (Line.lossConds { l with muted := false }) rfl, untold { l with muted := false } rfl]
    exact ⟨⟨rfl, h.unlocked, off, fun _ => h.on on, h.bounded⟩, ⟨rfl, h.unlocked, off, fun _ => h.on on, h.bounded⟩⟩

theorem declareLoss_feedLaw {s : State} {f : FeedId} (first : Bool) (due : lossIsDue s f = true) (law : FeedLaw s) :
    FeedLaw (declareLoss f first s) := by
  have on : (line s f).enable = true := by
    simp only [lossIsDue, Bool.and_eq_true] at due
    exact due.1.1
  have own := (feedLaw_iff s).1 law f
  have others (g : FeedId) (_ : g ≠ f) := (feedLaw_iff s).1 law g
  have cleared : Lines f { line s f with muted := false } s (clearLostPort f s) :=
    (Lines.refl f s).setFeed { s.feed f with port := { (s.feed f).port.abandon with
      chA := (s.feed f).port.chA.clean, chB := (s.feed f).port.chB.clean, lossTimer := none } }
  have lost {l : Line} {t : State} (h : Lines f l s t) :
      Lines f l.lossConds s (lossConditions f (setFeedCond f .feedLost true t)) :=
    ((h.setCond ..).setCond ..).setCond ..
  obtain ⟨first, second⟩ := own.lost on
  unfold declareLoss
  dsimp only
  split
  · exact (lost cleared).loseConverter.law others first
  · exact (lost cleared.loseConverter).law others second

theorem storeFeedConfig_feedLaw {s : State} (f : FeedId) (en : Bool) (ex : Option RateClass) (par val : Bool)
    (law : FeedLaw s) : FeedLaw (storeFeedConfig f en ex par val s) := by
  have own := (feedLaw_iff s).1 law f
  have others (g : FeedId) (_ : g ≠ f) := (feedLaw_iff s).1 law g
  have stored : Lines f { line s f with enable := en } s (configurePort f en ex par val s) :=
    (Lines.refl f s).setFeed { s.feed f with
      port := { (s.feed f).port with enable := en, expected := ex, parityCheck := par, honourValidity := val } }
  rw [storeFeedConfig_eq]
  split
  · next same => exact (stored.cast (m := line s f) (by rw [← same]; rfl)).law others own
  · next change =>
    cases en with
    | true =>
      have off : (line s f).enable = false := by simpa [line] using change
      obtain ⟨-, conds⟩ := own.off off
      unfold enablePort
      dsimp only
      rw [if_pos rfl]
      have cleaned := (stored.setFeed { (configurePort f true ex par val s).feed f with
          port := { ((configurePort f true ex par val s).feed f).port.abandon with
            chA := ((configurePort f true ex par val s).feed f).port.chA.clean
            chB := ((configurePort f true ex par val s).feed f).port.chB.clean, lastSpan := none, lossTimer := some 0
            lossTimeout := lossTimeoutOf (some .k32) } }).cast (m := { line s f with enable := true, muted := false })
        (by simp [configurePort, line, Port.abandon, Channel.clean, Channel.unmuted])
      refine ((cleaned.clearPortConds.changeConverter _).same (.ofAlarm (.judgeHealth ..))).law others ?_
      refine ⟨rfl, rfl, fun off => (by cases off), fun _ => ?_, Converter.cleared_bounded _ (.inr rfl)⟩
      simp [Line.set, Converter.enterSearch, Converter.cleared]
    | false =>
      unfold disablePort
      dsimp only
      rw [if_neg Bool.false_ne_true]
      have cleaned := (stored.setFeed { (configurePort f false ex par val s).feed f with
          port := { ((configurePort f false ex par val s).feed f).port.abandon with
            chA := ((configurePort f false ex par val s).feed f).port.chA.unmuted
            chB := ((configurePort f false ex par val s).feed f).port.chB.unmuted, lastSpan := none
            lossTimer := none } }).cast (m := { line s f with enable := false, muted := false })
        (by simp [configurePort, line, Port.abandon, Channel.unmuted])
      refine ((((cleaned.clearPortConds.setCond ..).setCond ..).changeConverter _).same
        (.ofAlarm (.judgeHealth ..))).law others ?_
      refine ⟨rfl, rfl, fun _ => ⟨rfl, fun k => ?_⟩, fun on => (by cases on), Converter.cleared_bounded _ (.inl rfl)⟩
      cases k <;> rfl

theorem clearFeedCounters_feedLaw {s : State} (f : FeedId) (law : FeedLaw s) : FeedLaw (clearFeedCounters f s) :=
  ((Lines.refl f s).setFeed _).law (fun g _ => (feedLaw_iff s).1 law g) ((feedLaw_iff s).1 law f).uncounted

theorem passTicks_linesSame (n : Nat) (s : State) : LinesSame s (passTicks n s) := by
  have counted := forEach_induction (P := LinesSame s) (f := fun f t => t.onPort f (Port.pass n))
    (fun f t h g => by
      rw [← h g]
      have passed := (Lines.refl f t).port (Port.pass n) (fun _ => rfl) (fun _ => rfl) fun _ => rfl
      by_cases hg : g = f
      · subst hg; exact passed.own
      · exact passed.others g hg) allFeeds s fun _ => rfl
  unfold passTicks
  dsimp only
  generalize forEach allFeeds (fun f t => t.onPort f (Port.pass n)) s = u at counted ⊢
  exact counted

/-- The programs' work at an output sample leaves the feeds. -/
theorem programSamples_feedsSame (frames : List (Rat × Rat)) (s : State) :
    FeedsSame s (forEach allProgs (programSample frames) s) := by
  refine .forEach (fun p t h => ?_) allProgs (.refl s)
  unfold programSample
  dsimp only
  split <;> exact h.other rfl rfl rfl

theorem outputSample_feedLaw {s : State} (law : FeedLaw s) : FeedLaw (outputSample s) := by
  have converted : ∀ (f : FeedId) (t : State), FeedLaw t → FeedLaw (converterSample f t) := fun f t law => by
    have own := (feedLaw_iff t).1 law f
    exact ((Lines.refl f t).keepConverter _).law (fun g _ => (feedLaw_iff t).1 law g)
      (own.keepConverter (by rw [Converter.advance_kept]; rfl) own.bounded.advance Converter.advance_idle)
  unfold outputSample
  dsimp only
  have advanced := forEach_induction (P := FeedLaw) converted allFeeds _
    ((passTicks_linesSame (Config.ticksPerSample - s.tick) s).law law)
  generalize forEach allFeeds converterSample _ = u at advanced ⊢
  have programs := programSamples_feedsSame (allFeeds.map fun f => (u.feed f).conv.delivered) u
  generalize forEach allProgs _ u = v at programs ⊢
  exact (programs.other rfl rfl rfl).linesSame.law advanced

theorem countTimer_linesSame (e : EntryId) (s : State) : LinesSame s (countTimer e s) := by
  unfold countTimer
  dsimp only
  split <;> exact fun _ => rfl

theorem closeAlarm_linesSame (apart : Bool) (e : EntryId) (s : State) : LinesSame s (closeAlarm apart e s) := by
  unfold closeAlarm
  dsimp only
  split
  · exact countTimer_linesSame e s
  · exact fun f => (LinesSame.ofAlarm ((AlarmEffect.expireRaise ..).trans (.expireClear ..)) f).trans
      (countTimer_linesSame e s f)

theorem blockClose_feedLaw {s : State} (o : CloseOrder) (law : FeedLaw s) : FeedLaw (blockClose o s) := by
  refine forEach_induction (P := FeedLaw) (fun w t law => ?_) (closeWorks o) _ ?_
  · obtain same | ⟨f, eq⟩ | ⟨apart, e, eq⟩ := closeWork_feeds o (fun p => formsBlock (s.prog p)) w t
    · exact same.linesSame.law law
    · rw [eq]
      exact ((Lines.refl f t).setCond ..).law (fun g _ => (feedLaw_iff t).1 law g)
        (((feedLaw_iff t).1 law f).clearCond (by decide) (by decide))
    · rw [eq]
      exact (closeAlarm_linesSame apart e t).law law
  · exact LinesSame.law (s := s) (fun _ => rfl) law

theorem storeEntryConfig_linesSame (e : EntryId) (c : EntryConfig) (s : State) : LinesSame s (storeEntryConfig e c s) := by
  have stored : LinesSame s (s.setEntry e ((s.entry e).configured c)) := fun _ => rfl
  unfold storeEntryConfig
  dsimp only
  split
  · split
    · exact fun f => (LinesSame.ofAlarm (.judgeHealth ..) f).trans (stored f)
    · exact stored
    · exact stored
  · exact stored

theorem FeedWork.feedLaw {s t : State} (h : FeedWork s t) (law : FeedLaw s) : FeedLaw t := by
  cases h with
  | same h => exact h.linesSame.law law
  | storeFeedConfig f en ex par val => exact storeFeedConfig_feedLaw f en ex par val law
  | clearFeedCounters f => exact clearFeedCounters_feedLaw f law
  | storeEntryConfig e c => exact (storeEntryConfig_linesSame e c s).law law
  | acknowledge es =>
    refine forEach_induction (P := FeedLaw) (fun e t law => LinesSame.law (s := t) ?_ law) es s law
    exact fun _ => rfl
  | frameEdge f first => exact frameEdge_feedLaw f first law
  | subframeReceived f w => exact subframeReceived_feedLaw f w law
  | declareLoss first due => exact declareLoss_feedLaw first due law
  | outputSample => exact outputSample_feedLaw law
  | passTicks n => exact (passTicks_linesSame n s).law law
  | blockClose o => exact blockClose_feedLaw o law
  | expireRaise e => exact (LinesSame.ofAlarm (.expireRaise e s)).law law
  | expireClear e => exact (LinesSame.ofAlarm (.expireClear e s)).law law
  | unitRestart =>
    refine (feedLaw_iff _).2 fun f => ?_
    have conds : (Machine.unitRestart s).feedCond f = fun _ => false := funext fun k => unitRestart_cond s _
    have bounded (st : ConvState) (h : st = .idle ∨ st = .search) :=
      Converter.cleared_bounded (c := {}) st h
    unfold line
    rw [unitRestart_feed, conds]
    cases en : (s.feed f).port.enable <;> simp only [Feed.restarted, en]
    · exact ⟨rfl, rfl, fun _ => ⟨rfl, fun _ => rfl⟩, fun on => (by cases on), bounded .idle (.inl rfl)⟩
    · exact ⟨rfl, rfl, fun off => (by cases off), fun _ => (by simp), bounded .search (.inr rfl)⟩
  | leaveReset u b =>
    refine (feedLaw_iff _).2 fun f => ?_
    have conds : (Machine.leaveReset u b s).feedCond f = fun _ => false := funext fun k => leaveReset_cond u b s _
    unfold line
    rw [leaveReset_feed, conds]
    exact ⟨rfl, rfl, fun _ => ⟨rfl, fun _ => rfl⟩, fun on => (by cases on), Converter.cleared_bounded (c := {}) _ (.inl rfl)⟩

theorem SameUnit.feedsSame {s t : State} (h : SameUnit s t) : FeedsSame s t :=
  (FeedsSame.refl s).other h.feeds h.conds h.entries

/-- Settles O58: a feed's conditions are set with its port and its converter by every work of the feed, and nothing else
touches them; an entry changes as its condition does, and by its timer. -/
theorem feedAndEntryLawsKept : Obligations.FeedAndEntryLawsKept :=
  ⟨fun _ _ law h => step_keeps (fun _ _ same => same.feedsSame.linesSame.law) (fun _ _ w => w.feedWork.feedLaw) law h,
    fun _ _ => step_entryLaw⟩

end Sys2Proof.Machine
end

section
/-! PROOFS. The health of the feeds (R62): what reads it, what leaves it, and that every change of enable, action or
entry state that moves it is followed by the feed being judged again. -/
namespace Sys2Proof.Machine

/-! ## The law of one feed -/

/-- An entry that makes its feed unhealthy: action FAILOVER, in ACTIVE or FALLING (R62). -/
def Entry.down (x : Entry) : Bool := x.config.action == .failover && (x.state == .active || x.state == .falling)

theorem healthTest_eq (s : State) (f : FeedId) :
    healthTest s f = ((s.feed f).port.enable && feedConds.all fun k => !(s.entry (feedEntry f k)).down) := rfl

theorem healthTest_congr {s t : State} {f : FeedId} (enable : (t.feed f).port.enable = (s.feed f).port.enable)
    (down : ∀ k, (t.entry (feedEntry f k)).down = (s.entry (feedEntry f k)).down) : healthTest t f = healthTest s f := by
  simp only [healthTest_eq, enable, down]

/-- The health kept for a feed is what the test of R62 gives. -/
def HealthAt (s : State) (f : FeedId) : Prop := (s.feed f).healthy = healthTest s f

theorem healthLaw_iff (s : State) : HealthLaw s ↔ ∀ f, HealthAt s f := by
  have every {P : FeedCond → Prop} : (∀ k, P k) ↔ ∀ k ∈ feedConds, P k :=
    ⟨fun h k _ => h k, fun h k => h k (by cases k <;> decide)⟩
  refine forall_congr' fun f => ?_
  rw [HealthAt, Bool.eq_iff_iff (a := (s.feed f).healthy) (b := healthTest s f), healthTest_eq, Bool.and_eq_true, List.all_eq_true, every]
  refine iff_congr Iff.rfl (and_congr Iff.rfl (forall_congr' fun k => forall_congr' fun _ => ?_))
  simp only [Entry.down, Bool.not_eq_true', Bool.and_eq_false_iff, Bool.or_eq_false_iff, beq_eq_false_iff_ne, ne_eq]
  tauto

/-- The law of the feeds of a set. -/
def HealthOn (Q : FeedId → Prop) (s : State) : Prop := ∀ f, Q f → HealthAt s f

section
variable {Q : FeedId → Prop} {s t : State}

theorem HealthAt.congr {f : FeedId} (h : HealthAt s f) (healthy : (t.feed f).healthy = (s.feed f).healthy)
    (enable : (t.feed f).port.enable = (s.feed f).port.enable)
    (down : ∀ k, (t.entry (feedEntry f k)).down = (s.entry (feedEntry f k)).down) : HealthAt t f :=
  healthy.trans (h.trans (healthTest_congr enable down).symm)

theorem FeedsSame.healthAt {f : FeedId} (h : FeedsSame s t) (law : HealthAt s f) : HealthAt t f :=
  law.congr (by rw [h.feed f]) (by rw [h.feed f]) fun k => by rw [h.entry f k]

theorem FeedsSame.healthOn (h : FeedsSame s t) (law : HealthOn Q s) : HealthOn Q t := fun f hf => h.healthAt (law f hf)

/-- A change of a feed's record that keeps its health and its enable. -/
theorem HealthOn.setFeed (law : HealthOn Q s) {f : FeedId} {x : Feed} (healthy : x.healthy = (s.feed f).healthy)
    (enable : x.port.enable = (s.feed f).port.enable) : HealthOn Q (s.setFeed f x) := fun g hg => by
  have kept : ((s.setFeed f x).feed g).healthy = (s.feed g).healthy ∧
      ((s.setFeed f x).feed g).port.enable = (s.feed g).port.enable := by
    by_cases h : g = f
    · subst h; simp [healthy, enable]
    · simp [State.setFeed_feed_ne h]
  exact (law g hg).congr kept.1 kept.2 fun _ => rfl

/-! ## A feed judged again -/

/-- A feed judged again has its health as the test gives it (R62), and the others keep theirs. -/
theorem judgeHealth_healthAt (f g : FeedId) (s : State) (h : g ≠ f → HealthAt s g) : HealthAt (judgeHealth f s) g := by
  unfold judgeHealth
  dsimp only
  split
  · next same =>
    by_cases hg : g = f
    · subst hg; exact same
    · exact h hg
  · refine FeedsSame.healthAt
      (.forEach (fun p t h => h.prog (.healthReaches f p t)) allProgs (.refl _)) ?_
    have test : healthTest (s.setFeed f { s.feed f with healthy := healthTest s f }) g = healthTest s g := by
      refine healthTest_congr ?_ fun _ => rfl
      by_cases hg : g = f
      · subst hg; simp
      · simp [State.setFeed_feed_ne hg]
    unfold HealthAt
    rw [test]
    by_cases hg : g = f
    · subst hg; simp
    · rw [State.setFeed_feed_ne hg]
      exact h hg

theorem HealthOn.judgeHealth (law : HealthOn Q s) (f : FeedId) : HealthOn Q (judgeHealth f s) :=
  fun g hg => judgeHealth_healthAt f g s fun _ => law g hg

/-- The entry e of a feed has changed, and the feed is judged again where that is handed over (R140). -/
theorem HealthOn.handed (law : HealthOn Q s) {e : EntryId} {o : Handover} (feeds : t.feeds = s.feeds)
    (entries : ∀ d, d ≠ e → t.entry d = s.entry d) (config : (t.entry e).config = (s.entry e).config)
    (quiet : o = .none → (t.entry e).down = (s.entry e).down) : HealthOn Q (handOver e o t) := by
  have apart {f : FeedId} (h : ∀ k, feedEntry f k ≠ e) (hf : Q f) : HealthAt t f :=
    (law f hf).congr (by rw [State.feed_congr feeds]) (by rw [State.feed_congr feeds]) fun k => by rw [entries _ (h k)]
  have unmoved (h : (t.entry e).down = (s.entry e).down) : HealthOn Q t := fun f hf =>
    (law f hf).congr (by rw [State.feed_congr feeds]) (by rw [State.feed_congr feeds]) fun k => by
      by_cases hk : feedEntry f k = e
      · rw [hk, h]
      · rw [entries _ hk]
  have source {f : FeedId} {x : Source} (h : entrySource e = x) (hx : x ≠ .feed f) (k : FeedCond) : feedEntry f k ≠ e := by
    rintro rfl
    rw [entrySource_feedEntry] at h
    exact hx h.symm
  unfold handOver
  split
  · split
    · exact unmoved (quiet rfl)
    · next f _ src =>
      intro g hg
      refine judgeHealth_healthAt f g t fun hne => apart (source src (by simpa using fun h => hne h.symm)) hg
    · next p src =>
      have kept : HealthOn Q t := fun g hg => apart (source src (by simp)) hg
      split
      · exact ((FeedsSame.refl t).prog (.silenceTrigger _ t)).healthOn kept
      · exact kept
    · next p src => exact fun g hg => apart (source src (by simp)) hg
    · next _ _ src => exact fun g hg => apart (source src (by simp)) hg
  · next inert =>
    refine unmoved ?_
    simp only [Entry.down, ← config, beq_eq_false_iff_ne.2 inert, Bool.false_and]

/-- A condition's entry that hands nothing over goes neither into nor out of ACTIVE and FALLING (R134). -/
theorem follow_quiet_down {e : EntryId} {v : Bool} (h : (follow e v s).2 = .none) :
    ((follow e v s).1.entry e).down = (s.entry e).down := by
  unfold follow at h ⊢
  split
  · rfl
  · next change =>
    rw [if_neg change] at h
    cases v with
    | true =>
      simp only [if_true] at h ⊢
      unfold conditionTrue at h ⊢
      dsimp only at h ⊢
      cases state : (s.entry e).state <;> simp only [State.setCondBit_entry, state] at h ⊢
      case clear =>
        by_cases delay : (s.entry e).config.raiseDelay = 0
        · simp [delay] at h
        · simp [delay, Entry.down, state]
          rfl
      all_goals simp [Entry.down, state]
    | false =>
      simp only [Bool.false_eq_true, if_false] at h ⊢
      unfold conditionFalse at h ⊢
      dsimp only at h ⊢
      cases state : (s.entry e).state <;> simp only [State.setCondBit_entry, state] at h ⊢
      case active =>
        by_cases delay : (s.entry e).config.clearDelay = 0
        · simp [delay] at h
        · simp [delay, Entry.down, state]
      case rising =>
        simp only [Entry.down, Entry.cleared, State.setEntry_entry_self, state]
        rfl

theorem HealthOn.setCond (law : HealthOn Q s) (e : EntryId) (v : Bool) : HealthOn Q (setCond e v s) := by
  have effect := EntryEffect.follow e v s
  exact law.handed effect.feeds effect.entry effect.config follow_quiet_down

theorem HealthOn.expireRaise (law : HealthOn Q s) (e : EntryId) : HealthOn Q (expireRaise e s) := by
  have effect := EntryEffect.raiseEntry e s
  unfold Machine.expireRaise
  split
  · exact law.handed effect.feeds effect.entry effect.config fun h => by cases h
  · exact law

theorem HealthOn.expireClear (law : HealthOn Q s) (e : EntryId) : HealthOn Q (expireClear e s) := by
  have effect := EntryEffect.releaseEntry e s
  unfold Machine.expireClear
  split
  · exact law.handed effect.feeds effect.entry effect.config fun h => by cases h
  · exact law

/-- An entry's record changes with neither its state nor its action. -/
theorem HealthOn.setEntry (law : HealthOn Q s) {e : EntryId} {x : Entry} (down : x.down = (s.entry e).down) :
    HealthOn Q (s.setEntry e x) := fun f hf =>
  (law f hf).congr rfl rfl fun k => by
    by_cases hk : feedEntry f k = e
    · rw [hk, State.setEntry_entry_self, down]
    · rw [State.setEntry_entry_ne hk]

/-! ## The work of a feed -/

theorem HealthOn.changeConverter (law : HealthOn Q s) (f : FeedId) (c : Converter) :
    HealthOn Q (changeConverter f c s) :=
  (changeConverter_feedsSame f c s).healthOn ((law.setFeed (x := { s.feed f with conv := c }) rfl rfl).setCond _ _)

theorem HealthOn.feedSteps {f : FeedId} (law : HealthOn Q s) (h : FeedSteps f s t) : HealthOn Q t :=
  h.keeps law (fun _ _ healthy enable _ law => law.setFeed healthy enable) (fun _ _ v law => law.setCond _ v)
    (fun _ c law => law.changeConverter f c) fun _ law => law.judgeHealth f

theorem HealthOn.keepConverter (law : HealthOn Q s) (f : FeedId) (r : Converter × Bool) :
    HealthOn Q (keepConverter f r s) := by
  have kept := law.setFeed (f := f) (x := { s.feed f with conv := r.1 }) rfl rfl
  unfold Machine.keepConverter
  dsimp only
  split
  · exact kept.setCond _ _
  · exact kept

/-- A port that is turned on or off is judged at the end of it (R62). -/
theorem HealthOn.storeFeedConfig (law : HealthOn Q s) (f : FeedId) (en : Bool) (ex : Option RateClass) (par val : Bool) :
    HealthOn Q (storeFeedConfig f en ex par val s) := by
  by_cases same : (s.feed f).port.enable = en
  · rw [storeFeedConfig_eq, if_pos same]
    exact law.setFeed rfl same.symm
  · intro g hg
    by_cases hgf : g = f
    · subst hgf
      rw [storeFeedConfig_eq, if_neg same]
      split
      · unfold enablePort
        exact judgeHealth_healthAt g g _ fun h => absurd rfl h
      · unfold disablePort
        exact judgeHealth_healthAt g g _ fun h => absurd rfl h
    · have configured : HealthOn (fun h => Q h ∧ h ≠ f) (configurePort f en ex par val s) := fun h hh =>
        (law h hh.1).congr (by rw [configurePort, State.onPort_eq, State.setFeed_feed_ne hh.2])
          (by rw [configurePort, State.onPort_eq, State.setFeed_feed_ne hh.2]) fun _ => rfl
      exact configured.feedSteps (storeFeedConfig_steps f en ex par val s) g ⟨hg, hgf⟩

theorem HealthOn.passTicks (law : HealthOn Q s) (n : Nat) : HealthOn Q (passTicks n s) := by
  have counted := forEach_induction (P := HealthOn Q) (f := fun f t => t.onPort f (Port.pass n))
    (fun f t law => law.setFeed rfl rfl) allFeeds s law
  unfold Machine.passTicks
  dsimp only
  generalize forEach allFeeds (fun f t => t.onPort f (Port.pass n)) s = u at counted ⊢
  exact ((FeedsSame.refl u).other rfl rfl rfl).healthOn counted

theorem HealthOn.outputSample (law : HealthOn Q s) : HealthOn Q (outputSample s) := by
  have converted := forEach_induction (P := HealthOn Q) (f := converterSample)
    (fun f t law => law.keepConverter f _) allFeeds _ (law.passTicks (Config.ticksPerSample - s.tick))
  unfold Machine.outputSample
  dsimp only
  generalize forEach allFeeds converterSample _ = u at converted ⊢
  have programs := programSamples_feedsSame (allFeeds.map fun f => (u.feed f).conv.delivered) u
  generalize forEach allProgs _ u = v at programs ⊢
  exact (programs.other rfl rfl rfl).healthOn converted

theorem HealthOn.closeAlarm (law : HealthOn Q s) (apart : Bool) (e : EntryId) : HealthOn Q (closeAlarm apart e s) := by
  have counted : HealthOn Q (countTimer e s) := by
    unfold countTimer
    dsimp only
    split
    · exact law.setEntry rfl
    · exact law.setEntry rfl
    · exact law
    · exact law
  unfold Machine.closeAlarm
  dsimp only
  split
  · exact counted
  · exact (counted.expireRaise e).expireClear e

theorem HealthOn.blockClose (law : HealthOn Q s) (o : CloseOrder) : HealthOn Q (blockClose o s) := by
  refine forEach_induction (P := HealthOn Q) (fun w t law => ?_) (closeWorks o) _ ?_
  · obtain same | ⟨f, eq⟩ | ⟨apart, e, eq⟩ := closeWork_feeds o (fun p => formsBlock (s.prog p)) w t
    · exact same.healthOn law
    · rw [eq]; exact law.setCond _ _
    · rw [eq]; exact law.closeAlarm apart e
  · exact FeedsSame.healthOn (s := s) ((FeedsSame.refl s).other rfl rfl rfl) law

/-- A change of action is followed by the feed being judged where it moves the test (R140). -/
theorem HealthOn.storeEntryConfig (law : HealthOn Q s) (e : EntryId) (c : EntryConfig) :
    HealthOn Q (storeEntryConfig e c s) := by
  have stored {f : FeedId} (h : ∀ k, feedEntry f k ≠ e) (hf : Q f) :
      HealthAt (s.setEntry e ((s.entry e).configured c)) f :=
    (law f hf).congr rfl rfl fun k => by rw [State.setEntry_entry_ne (h k)]
  unfold Machine.storeEntryConfig
  dsimp only
  split
  · split
    · next f src =>
      refine fun g hg => judgeHealth_healthAt f g _ fun hne => stored (fun k hk => hne ?_) hg
      subst hk
      rw [entrySource_feedEntry] at src
      injection src
    · next p src =>
      refine fun g hg => stored (fun k hk => ?_) hg
      subst hk
      simp [entrySource_feedEntry] at src
    · next src =>
      refine fun g hg => stored (fun k hk => ?_) hg
      subst hk
      simp [entrySource_feedEntry] at src
  · next unmoved =>
    refine law.setEntry ?_
    have state : ((s.entry e).configured c).state = (s.entry e).state := rfl
    have action : ((s.entry e).configured c).config.action = c.action := rfl
    simp only [Entry.down, state, action]
    obtain same | still := not_and_or.1 unmoved
    · rw [not_not.1 same]
    · obtain ⟨active, falling⟩ := not_or.1 still
      simp only [beq_eq_false_iff_ne.2 active, beq_eq_false_iff_ne.2 falling, Bool.or_self, Bool.and_false]

end

theorem FeedWork.healthLaw {s t : State} (h : FeedWork s t) (law : HealthLaw s) : HealthLaw t := by
  have all : HealthOn (fun _ => True) s := fun f _ => (healthLaw_iff s).1 law f
  suffices HealthOn (fun _ => True) t from (healthLaw_iff t).2 fun f => this f trivial
  have fresh {u : State} {e : EntryId} (state : (u.entry e).state = .clear) : (u.entry e).down = false := by
    simp [Entry.down, state]
  cases h with
  | same h => exact h.healthOn all
  | storeFeedConfig f en ex par val => exact all.storeFeedConfig f en ex par val
  | clearFeedCounters f => exact all.setFeed rfl rfl
  | storeEntryConfig e c => exact all.storeEntryConfig e c
  | acknowledge es =>
    refine forEach_induction (P := HealthOn fun _ => True) (fun e t law => law.setEntry ?_) es s all
    rfl
  | frameEdge f first => exact all.feedSteps (FeedSteps.refl.frameEdge first)
  | subframeReceived f w => exact all.feedSteps (FeedSteps.refl.subframeReceived w)
  | declareLoss first _ => exact all.feedSteps (FeedSteps.refl.declareLoss first)
  | outputSample => exact all.outputSample
  | passTicks n => exact all.passTicks n
  | blockClose o => exact all.blockClose o
  | expireRaise e => exact all.expireRaise e
  | expireClear e => exact all.expireClear e
  | unitRestart =>
    intro f _
    have clear (k : FeedCond) : ((Machine.unitRestart s).entry (feedEntry f k)).down = false :=
      fresh (by rw [unitRestart_entry]; rfl)
    simp [HealthAt, healthTest_eq, clear, unitRestart_feed, Feed.restarted]
  | leaveReset u b =>
    intro f _
    simp [HealthAt, healthTest_eq, leaveReset_feed]

/-- Settles O59: whatever changes the enable of a feed, or the action or state of one of its entries in a way that moves
the test, is followed by the feed being judged again, and nothing else changes its health. -/
theorem healthLawKept : Obligations.HealthLawKept := fun _ _ law h =>
  step_keeps (fun s t same law => (healthLaw_iff t).2 fun f => same.feedsSame.healthAt ((healthLaw_iff s).1 law f))
    (fun _ _ w => w.feedWork.healthLaw) law h

end Sys2Proof.Machine
end

section
/-! PROOFS. NO_SOURCE and ON_BACKUP (R76, R77): what they read of a program and of the feeds' health, what leaves that
as it stands (`SourcesSame`), and that everything else judges them again. -/
namespace Sys2Proof.Machine

/-! ## The law of one program -/

/-- A program that runs or stops on a rank other than 0 (R77). -/
def Program.backup (g : Program) : Bool := g.active && (match g.currentRank with
  | none => false
  | some r => r != 0)

/-- NO_SOURCE of a program is as R76 has it. -/
def NoSourceAt (s : State) (p : ProgId) : Prop := s.progCond p .noSource = noSourceTest s (s.prog p)

/-- ON_BACKUP of a program is as R77 has it. -/
def BackupAt (s : State) (p : ProgId) : Prop := s.progCond p .onBackup = (s.prog p).backup

theorem lowestEligible_isNone (s : State) (g : Program) :
    (lowestEligible s g).isNone = true ↔ ∀ r, eligible s g r = false := by
  unfold lowestEligible
  rw [Option.isNone_iff_eq_none, List.find?_eq_none]
  exact ⟨fun h r => by simpa using h r (List.mem_finRange r), fun h r _ => by simp [h r]⟩

theorem sourceLaw_iff (s : State) : SourceLaw s ↔ ∀ p, NoSourceAt s p ∧ BackupAt s p := by
  refine forall_congr' fun p => and_congr ?_ ?_
  · rw [NoSourceAt, Bool.eq_iff_iff (a := s.progCond p .noSource) (b := noSourceTest s (s.prog p)), noSourceTest,
      Bool.and_eq_true, Bool.and_eq_true, lowestEligible_isNone, Bool.not_eq_true', and_assoc]
  · rw [BackupAt, Bool.eq_iff_iff (a := s.progCond p .onBackup) (b := (s.prog p).backup), Program.backup, Bool.and_eq_true]
    refine iff_congr Iff.rfl (and_congr Iff.rfl ?_)
    cases (s.prog p).currentRank <;> simp

/-- The law of every program but one. -/
def SourceOthers (p : ProgId) (s : State) : Prop := ∀ q, q ≠ p → NoSourceAt s q ∧ BackupAt s q

theorem SourceLaw.others {s : State} (law : SourceLaw s) (p : ProgId) : SourceOthers p s :=
  fun q _ => (sourceLaw_iff s).1 law q

theorem SourceOthers.law {s : State} {p : ProgId} (others : SourceOthers p s) (noSource : NoSourceAt s p)
    (backup : BackupAt s p) : SourceLaw s := (sourceLaw_iff s).2 fun q => by
  by_cases h : q = p
  · subst h; exact ⟨noSource, backup⟩
  · exact others q h

/-- A program without a run has both conditions false. -/
theorem noSourceTest_inactive {s : State} {g : Program} (h : g.active = false) : noSourceTest s g = false := by
  simp [noSourceTest, h]

theorem Program.backup_inactive {g : Program} (h : g.active = false) : g.backup = false := by simp [Program.backup, h]

/-! ## What the law reads -/

/-- Two records of a program agree on whether it runs, its current rank, its sets and its marks. -/
structure Program.SameSource (g h : Program) : Prop where
  active : h.active = g.active
  rank : h.currentRank = g.currentRank
  sets : h.sets = g.sets
  marks : h.marks = g.marks

theorem Program.SameSource.refl (g : Program) : g.SameSource g := ⟨rfl, rfl, rfl, rfl⟩

theorem Program.SameSource.trans {a b c : Program} (h : a.SameSource b) (g : b.SameSource c) : a.SameSource c :=
  ⟨g.active.trans h.active, g.rank.trans h.rank, g.sets.trans h.sets, g.marks.trans h.marks⟩

theorem Program.SameSource.setAt {g h : Program} (k : g.SameSource h) (r : Rank) : h.setAt r = g.setAt r := by
  unfold Program.setAt; rw [k.sets]

theorem Program.SameSource.backup {g h : Program} (k : g.SameSource h) : h.backup = g.backup := by
  unfold Program.backup; rw [k.active, k.rank]

theorem setNames_of_mem {l : List SlotSource} {x : SlotSource} (h : x ∈ l) : setNames l x.feed = true :=
  List.any_eq_true.2 ⟨x, h, beq_self_eq_true _⟩

theorem namesFeed_of_setAt {g : Program} {r : Rank} {l : List SlotSource} {x : SlotSource} (set : g.setAt r = some l)
    (h : x ∈ l) : g.namesFeed x.feed = true := by
  unfold Program.namesFeed
  refine List.any_eq_true.2 ⟨r, List.mem_finRange r, ?_⟩
  rw [set]
  exact setNames_of_mem h

/-- A rank is healthy in two states that agree on the health of the feeds the program names. -/
theorem rankHealthy_congr {s t : State} {g h : Program} (same : g.SameSource h)
    (healthy : ∀ f, g.namesFeed f = true → (t.feed f).healthy = (s.feed f).healthy) (r : Rank) :
    rankHealthy t h r = rankHealthy s g r := by
  unfold rankHealthy
  rw [same.setAt]
  cases set : g.setAt r with
  | none => rfl
  | some l =>
    refine Bool.eq_iff_iff.2 (List.all_eq_true.trans (Iff.trans (forall₂_congr fun x hx => ?_) List.all_eq_true.symm))
    rw [healthy _ (namesFeed_of_setAt set hx)]

theorem eligible_congr {s t : State} {g h : Program} (same : g.SameSource h)
    (healthy : ∀ f, g.namesFeed f = true → (t.feed f).healthy = (s.feed f).healthy) (r : Rank) :
    eligible t h r = eligible s g r := by
  unfold eligible Program.markAt
  rw [rankHealthy_congr same healthy, same.marks]

theorem currentEligible_congr {s t : State} {g h : Program} (same : g.SameSource h)
    (healthy : ∀ f, g.namesFeed f = true → (t.feed f).healthy = (s.feed f).healthy) :
    currentEligible t h = currentEligible s g := by
  unfold currentEligible
  rw [same.rank]
  cases g.currentRank with
  | none => rfl
  | some r => exact eligible_congr same healthy r

theorem noSourceTest_congr {s t : State} {g h : Program} (same : g.SameSource h)
    (healthy : ∀ f, g.namesFeed f = true → (t.feed f).healthy = (s.feed f).healthy) :
    noSourceTest t h = noSourceTest s g := by
  have ranks : eligible t h = eligible s g := funext fun r => eligible_congr same healthy r
  unfold noSourceTest lowestEligible
  rw [same.active, currentEligible_congr same healthy, ranks]

/-- Two states agree on all that the law reads of one program. -/
structure SourceSame (p : ProgId) (s t : State) : Prop where
  prog : (s.prog p).SameSource (t.prog p)
  noSource : t.progCond p .noSource = s.progCond p .noSource
  onBackup : t.progCond p .onBackup = s.progCond p .onBackup
  healthy : ∀ f, (s.prog p).namesFeed f = true → (t.feed f).healthy = (s.feed f).healthy

theorem SourceSame.noSourceAt {p : ProgId} {s t : State} (h : SourceSame p s t) (law : NoSourceAt s p) : NoSourceAt t p :=
  h.noSource.trans (law.trans (noSourceTest_congr h.prog h.healthy).symm)

theorem SourceSame.backupAt {p : ProgId} {s t : State} (h : SourceSame p s t) (law : BackupAt s p) : BackupAt t p :=
  h.onBackup.trans (law.trans h.prog.backup.symm)

/-- Another program's work leaves what the law reads. -/
theorem ProgEffect.sourceSame {p q : ProgId} {s t : State} (h : ProgEffect p s t) (hq : q ≠ p) : SourceSame q s t := by
  have cond (k : ProgCond) : t.progCond q k = s.progCond q k :=
    h.cond _ fun l e => hq (progEntry_inj e).1
  refine ⟨?_, cond _, cond _, fun f _ => by rw [State.feed_congr h.feeds]⟩
  rw [h.prog q hq]
  exact .refl _

theorem SourceOthers.prog {p : ProgId} {s t : State} (law : SourceOthers p s) (h : ProgEffect p s t) :
    SourceOthers p t := fun q hq => ⟨(h.sourceSame hq).noSourceAt (law q hq).1, (h.sourceSame hq).backupAt (law q hq).2⟩

theorem houseRef_ne (p : ProgId) (k : ProgCond) : houseRefEntry ≠ progEntry p k := by
  revert p; cases k <;> decide

/-- Two states agree on all that the law reads. -/
structure SourcesSame (s t : State) : Prop where
  prog : ∀ p, (s.prog p).SameSource (t.prog p)
  noSource : ∀ p, t.progCond p .noSource = s.progCond p .noSource
  onBackup : ∀ p, t.progCond p .onBackup = s.progCond p .onBackup
  healthy : ∀ f, (t.feed f).healthy = (s.feed f).healthy

namespace SourcesSame

variable {s t u : State}

theorem refl (s : State) : SourcesSame s s := ⟨fun _ => .refl _, fun _ => rfl, fun _ => rfl, fun _ => rfl⟩

theorem trans {a b c : State} (h : SourcesSame a b) (g : SourcesSame b c) : SourcesSame a c :=
  ⟨fun p => (h.prog p).trans (g.prog p), fun p => (g.noSource p).trans (h.noSource p),
    fun p => (g.onBackup p).trans (h.onBackup p), fun f => (g.healthy f).trans (h.healthy f)⟩

theorem at_ (h : SourcesSame s t) (p : ProgId) : SourceSame p s t :=
  ⟨h.prog p, h.noSource p, h.onBackup p, fun f _ => h.healthy f⟩

theorem law (h : SourcesSame s t) (law : SourceLaw s) : SourceLaw t :=
  (sourceLaw_iff t).2 fun p => ⟨(h.at_ p).noSourceAt ((sourceLaw_iff s).1 law p).1,
    (h.at_ p).backupAt ((sourceLaw_iff s).1 law p).2⟩

theorem other (h : SourcesSame s t) (feeds : u.feeds = t.feeds) (progs : u.progs = t.progs) (conds : u.conds = t.conds) :
    SourcesSame s u :=
  h.trans ⟨fun p => by rw [State.prog_congr progs]; exact .refl _, fun _ => State.cond_congr conds _,
    fun _ => State.cond_congr conds _, fun f => by rw [State.feed_congr feeds]⟩

theorem setProg (h : SourcesSame s t) {p : ProgId} {x : Program} (same : (t.prog p).SameSource x) :
    SourcesSame s (t.setProg p x) := by
  refine h.trans ⟨fun q => ?_, fun _ => rfl, fun _ => rfl, fun _ => rfl⟩
  by_cases hq : q = p
  · subst hq; rw [State.setProg_prog_self]; exact same
  · rw [State.setProg_prog_ne hq]; exact .refl _

theorem onProg {g : Program → Program} (same : ∀ x, Program.SameSource x (g x)) (p : ProgId) (h : SourcesSame s t) :
    SourcesSame s (t.onProg p g) := h.setProg (same _)

theorem setFeed (h : SourcesSame s t) {f : FeedId} {x : Feed} (healthy : x.healthy = (t.feed f).healthy) :
    SourcesSame s (t.setFeed f x) := by
  refine h.trans ⟨fun _ => .refl _, fun _ => rfl, fun _ => rfl, fun g => ?_⟩
  by_cases hg : g = f
  · subst hg; rw [State.setFeed_feed_self]; exact healthy
  · rw [State.setFeed_feed_ne hg]

theorem setReception (f : FeedId) (q : Port) (c : Converter) (h : SourcesSame s t) :
    SourcesSame s (t.setFeed f { port := q, conv := c, healthy := (t.feed f).healthy }) := h.setFeed rfl

theorem setEntry (e : EntryId) (x : Entry) (h : SourcesSame s t) : SourcesSame s (t.setEntry e x) := h.other rfl rfl rfl

theorem pushNotice (k : NoticeKind) (src : Source) (d : List Byte) (h : SourcesSame s t) :
    SourcesSame s (pushNotice k src d t) := by
  have effect := EntryEffect.pushNotice 0 k src d t
  exact h.other effect.feeds effect.progs effect.conds

/-- An entry's own work. -/
theorem entryEffect {e : EntryId} (h : SourcesSame s t) (w : EntryEffect e t u) : SourcesSame s u :=
  h.other w.feeds w.progs w.conds

theorem gain (h : SourcesSame s t) (w : GainEffect t u) : SourcesSame s u := by
  refine h.trans ⟨fun p => ?_, fun _ => ?_, fun _ => ?_, fun _ => ?_⟩
  · rw [w.prog p]; exact ⟨rfl, rfl, rfl, rfl⟩
  all_goals rw [w.rest]; rfl

theorem follow {e : EntryId} (noSource : ∀ p, e ≠ progEntry p .noSource) (onBackup : ∀ p, e ≠ progEntry p .onBackup)
    (v : Bool) (h : SourcesSame s t) : SourcesSame s (follow e v t).1 := by
  refine SourcesSame.entryEffect (e := e) (t := t.setCondBit e v) (h.trans ?_) (.follow e v t)
  exact ⟨fun _ => .refl _, fun p => State.setCondBit_cond_ne (noSource p).symm t v,
    fun p => State.setCondBit_cond_ne (onBackup p).symm t v, fun _ => rfl⟩

theorem setProgCond {k : ProgCond} (p : ProgId) (v : Bool) (h : SourcesSame s t)
    (other : k ≠ .silence ∧ k ≠ .noSource ∧ k ≠ .onBackup := by decide) : SourcesSame s (setProgCond p k v t) := by
  obtain ⟨silence, noSource, onBackup⟩ := other
  rw [setProgCond_follow silence]
  exact h.follow (fun _ => progEntry_ne noSource _ _) (fun _ => progEntry_ne onBackup _ _) v

theorem clearSilence (p : ProgId) (h : SourcesSame s t) : SourcesSame s (Machine.setProgCond p .silence false t) := by
  rw [setSilence_false]
  exact h.follow (fun _ => progEntry_ne (by decide) _ _) (fun _ => progEntry_ne (by decide) _ _) false

theorem clearMeasureConds (p : ProgId) (h : SourcesSame s t) : SourcesSame s (clearMeasureConds p t) :=
  ((((h.clearSilence p).setProgCond p false).setProgCond p false).setProgCond p false).setProgCond p false

theorem forEach {α : Type} {f : α → State → State} (each : ∀ x t, SourcesSame s t → SourcesSame s (f x t)) (l : List α)
    (h : SourcesSame s t) : SourcesSame s (Machine.forEach l f t) := forEach_induction each l t h

/-! ### Delays -/

theorem judgeLatency (p : ProgId) (h : SourcesSame s t) : SourcesSame s (judgeLatency p t) :=
  (h.setProgCond p _).setProgCond p _

theorem settleNotice (p : ProgId) (h : SourcesSame s t) : SourcesSame s (settleNotice p t) := h.pushNotice ..

end SourcesSame

theorem Program.beginCut_sameSource (g : Program) : g.SameSource g.beginCut := ⟨rfl, rfl, rfl, rfl⟩

theorem Program.chooseOp_sameSource (g : Program) : g.SameSource g.chooseOp := by
  unfold Program.chooseOp
  split
  · exact ⟨rfl, rfl, rfl, rfl⟩
  · split
    · exact ⟨rfl, rfl, rfl, rfl⟩
    · exact g.beginCut_sameSource

theorem Program.retarget_sameSource (g : Program) : g.SameSource g.retarget := by
  unfold Program.retarget
  split
  · exact g.chooseOp_sameSource
  · split
    · exact .refl g
    · exact g.beginCut_sameSource
  all_goals exact .refl g

theorem Program.afterClamp_sameSource (g : Program) : g.SameSource g.afterClamp := by
  unfold Program.afterClamp
  split
  · exact g.chooseOp_sameSource
  · exact g.chooseOp_sameSource
  all_goals exact .refl g

namespace SourcesSame

variable {s t u : State}

theorem moveTarget (p : ProgId) (h : SourcesSame s t) : SourcesSame s (moveTarget p t) := by
  have moved (g : Program) (d : DelayRec) : g.SameSource { g with delay := d } := ⟨rfl, rfl, rfl, rfl⟩
  unfold Machine.moveTarget
  dsimp only
  split
  · exact h.setProg (moved _ _)
  · split
    · have clamped := h.setProg ((moved (t.prog p) { (t.prog p).delay with
        dtgt := delayTargetOf t (t.prog p)
        dcur := min (t.prog p).delay.dcur (ringBound t (t.prog p)).toNat }).trans (Program.afterClamp_sameSource _))
      split
      · exact clamped.settleNotice p
      · exact clamped
    · split
      · exact h.setProg (moved _ _)
      · exact h.setProg ((moved _ _).trans (Program.retarget_sameSource _))

theorem recomputeDelay (p : ProgId) (h : SourcesSame s t) : SourcesSame s (recomputeDelay p t) := by
  unfold Machine.recomputeDelay
  split
  · exact (h.judgeLatency p).moveTarget p
  · exact h

theorem delayed {p : ProgId} {d : DelayRec} (h : SourcesSame s t) :
    SourcesSame s (t.setProg p { t.prog p with delay := d }) := h.setProg ⟨rfl, rfl, rfl, rfl⟩

theorem startDelay (p : ProgId) (h : SourcesSame s t) : SourcesSame s (startDelay p t) := (h.judgeLatency p).delayed

theorem slewComplete (p : ProgId) (h : SourcesSame s t) : SourcesSame s (slewComplete p t) := by
  rw [slewComplete_eq]
  split
  · exact h.delayed.settleNotice p
  · exact h.delayed

theorem cutInEnd (p : ProgId) (h : SourcesSame s t) : SourcesSame s (cutInEnd p t) := by
  have ended (g : Program) : g.SameSource { g with delay := g.delay.noOp } := ⟨rfl, rfl, rfl, rfl⟩
  unfold Machine.cutInEnd
  dsimp only
  split
  · exact (h.setProg (ended _)).settleNotice p
  · exact h.setProg ((ended _).trans (Program.chooseOp_sameSource _))

theorem passTicks (n : Nat) (h : SourcesSame s t) : SourcesSame s (passTicks n t) := by
  have counted := SourcesSame.forEach (f := fun f t => t.onPort f (Port.pass n)) (fun f _ h => h.setFeed rfl) allFeeds h
  unfold Machine.passTicks
  generalize Machine.forEach allFeeds (fun f t => t.onPort f (Port.pass n)) t = u at counted ⊢
  exact counted.other rfl rfl rfl

theorem programSample (frames : List (Rat × Rat)) (p : ProgId) (h : SourcesSame s t) :
    SourcesSame s (programSample frames p t) := by
  have sampled (trims : List Nat) (m : Memory) (g : Program) : g.SameSource (g.sample frames trims m).1 :=
    ⟨rfl, rfl, rfl, rfl⟩
  unfold Machine.programSample
  dsimp only
  split
  · exact (h.setProg (sampled (trims t (t.prog p)) t.store (t.prog p))).other rfl rfl rfl
  · exact h.other rfl rfl rfl

/-! ### Loudness -/

theorem loud {p : ProgId} {l : Loudness} (h : SourcesSame s t) :
    SourcesSame s (t.setProg p { t.prog p with loud := l }) := h.setProg ⟨rfl, rfl, rfl, rfl⟩

theorem activateSettings (p : ProgId) (h : SourcesSame s t) : SourcesSame s (activateSettings p t) := by
  unfold Machine.activateSettings
  dsimp only
  split
  · exact h.loud.clearSilence p
  · exact h.loud

theorem judgeLevels (formed : Bool) (p : ProgId) (h : SourcesSame s t) : SourcesSame s (judgeLevels formed p t) := by
  have ceiling : SourcesSame s (judgeCeiling p t) := h.loud.setProgCond p _
  unfold Machine.judgeLevels judgeOverLevel
  dsimp only
  repeat' split
  · exact ceiling
  · exact ceiling.setProgCond p _
  · exact ceiling
  · exact h

theorem closeReturn (apart : Bool) (p : ProgId) (h : SourcesSame s t) : SourcesSame s (closeReturn apart p t) := by
  have zeroed (g : Program) : g.SameSource g.zeroReturn := ⟨rfl, rfl, rfl, rfl⟩
  have timed (g : Program) (n : Nat) (b : Bool) : g.SameSource { g with returnTimer := n, returnFell := b } :=
    ⟨rfl, rfl, rfl, rfl⟩
  have began (g : Program) : g.SameSource g.startReturn := ⟨rfl, rfl, rfl, rfl⟩
  have counted : SourcesSame s (countReturn p t) := by
    unfold countReturn
    dsimp only
    split
    · split
      · exact h.setProg (timed _ _ _)
      · exact h.onProg zeroed p
    · exact h.setProg (timed _ _ _)
  unfold Machine.closeReturn beginReturn
  dsimp only
  repeat' split
  · exact counted
  · exact counted.onProg began p
  · exact counted

end SourcesSame

/-! ## What judges the conditions again -/

section
variable {p : ProgId} {s t : State}

theorem SourcesSame.sourceOthers (h : SourcesSame s t) (law : SourceOthers p s) : SourceOthers p t :=
  fun q hq => ⟨(h.at_ q).noSourceAt (law q hq).1, (h.at_ q).backupAt (law q hq).2⟩

theorem SourcesSame.noSourceAt (h : SourcesSame s t) (law : NoSourceAt s p) : NoSourceAt t p := (h.at_ p).noSourceAt law

theorem SourcesSame.backupAt (h : SourcesSame s t) (law : BackupAt s p) : BackupAt t p := (h.at_ p).backupAt law

theorem SourceLaw.noSourceAt (law : SourceLaw s) (p : ProgId) : NoSourceAt s p := ((sourceLaw_iff s).1 law p).1

theorem SourceLaw.backupAt (law : SourceLaw s) (p : ProgId) : BackupAt s p := ((sourceLaw_iff s).1 law p).2

/-- A condition followed by its entry alone leaves every record. -/
theorem follow_noSourceTest (e : EntryId) (v : Bool) (s : State) (g : Program) :
    noSourceTest (follow e v s).1 g = noSourceTest s g :=
  noSourceTest_congr (.refl g) fun f _ => by rw [State.feed_congr (EntryEffect.follow e v s).feeds]; rfl

/-- NO_SOURCE judged is as R76 has it. -/
theorem judgeNoSource_noSourceAt (p : ProgId) (s : State) : NoSourceAt (judgeNoSource p s) p := by
  unfold NoSourceAt judgeNoSource followQuiet
  rw [follow_noSourceTest, follow_prog, State.progCond, follow_cond, if_pos rfl]

theorem judgeNoSource_backupAt (law : BackupAt s p) : BackupAt (judgeNoSource p s) p := by
  unfold BackupAt judgeNoSource followQuiet
  rw [follow_prog, State.progCond, follow_cond, if_neg (progEntry_ne (by decide) _ _)]
  exact law

/-- ON_BACKUP judged is as R77 has it. -/
theorem judgeOnBackup_backupAt (p : ProgId) (s : State) : BackupAt (judgeOnBackup p s) p := by
  unfold BackupAt judgeOnBackup
  rw [setProgCond_prog (by decide), setProgCond_progCond (by decide), if_pos ⟨rfl, rfl⟩]
  rfl

theorem judgeOnBackup_noSourceAt (law : NoSourceAt s p) : NoSourceAt (judgeOnBackup p s) p := by
  unfold NoSourceAt judgeOnBackup
  rw [setProgCond_follow (by decide), follow_noSourceTest, follow_prog, State.progCond, follow_cond,
    if_neg (progEntry_ne (by decide) _ _)]
  exact law

/-- The law with NO_SOURCE of one program to be judged. -/
structure Unjudged (p : ProgId) (s : State) : Prop where
  others : SourceOthers p s
  backup : BackupAt s p

theorem SourceLaw.unjudged (law : SourceLaw s) (p : ProgId) : Unjudged p s := ⟨law.others p, law.backupAt p⟩

theorem Unjudged.judge (h : Unjudged p s) : SourceLaw (judgeNoSource p s) :=
  (h.others.prog (.judgeNoSource p s)).law (judgeNoSource_noSourceAt p s) (judgeNoSource_backupAt h.backup)

/-- The program's record changes in its swap, its marks, its sets or a stack with the same top. -/
theorem Unjudged.onProg (h : Unjudged p s) {g : Program → Program} (backup : (g (s.prog p)).backup = (s.prog p).backup) :
    Unjudged p (s.onProg p g) := by
  refine ⟨h.others.prog (.onProg p s g), ?_⟩
  rw [BackupAt, State.onProg_eq, State.setProg_prog_self, backup]
  exact h.backup

theorem Program.startFadeOut_sameSource (g : Program) (c : SwapCause) (r : Option Rank) :
    g.SameSource (g.startFadeOut c r) := ⟨rfl, rfl, rfl, rfl⟩

theorem Program.triggered_sameSource (g : Program) (c : SwapCause) : g.SameSource (g.triggered c) := by
  unfold Program.triggered
  split
  · exact g.startFadeOut_sameSource c none
  · exact .refl g
  · exact g.startFadeOut_sameSource c none

/-- What an eligibility event does after NO_SOURCE is judged leaves what the law reads. -/
theorem eligibilityEvent_same (active : (s.prog p).active = true) :
    SourcesSame (judgeNoSource p s) (eligibilityEvent p s) := by
  have zeroed (g : Program) : g.SameSource g.zeroReturn := ⟨rfl, rfl, rfl, rfl⟩
  have judged : SourcesSame (judgeNoSource p s) (judgeReturnSet p (judgeNoSource p s)) := by
    unfold judgeReturnSet
    split
    · exact (SourcesSame.refl _).onProg zeroed p
    · exact .refl _
  unfold eligibilityEvent
  rw [if_pos active]
  unfold noSourceRelease
  dsimp only
  split
  · exact judged.onProg (fun g => g.triggered_sameSource .failover) p
  · exact judged

/-- An eligibility event judges NO_SOURCE of a program that runs or stops (R63, R76). -/
theorem Unjudged.event (h : Unjudged p s) (inactive : (s.prog p).active = false → NoSourceAt s p) :
    SourceLaw (eligibilityEvent p s) := by
  cases active : (s.prog p).active with
  | true => exact (eligibilityEvent_same active).law h.judge
  | false =>
    unfold eligibilityEvent
    rw [active, if_neg Bool.false_ne_true]
    exact h.others.law (inactive active) h.backup

theorem SourceLaw.setMark (law : SourceLaw s) (p : ProgId) (r : Rank) (v : Bool) : SourceLaw (setMark p r v s) := by
  have marked : (((s.prog p).withMark r v)).active = (s.prog p).active := rfl
  refine Unjudged.event ((law.unjudged p).onProg (g := (·.withMark r v)) rfl) fun inactive => ?_
  rw [State.onProg_eq, State.setProg_prog_self] at inactive
  rw [NoSourceAt, State.onProg_eq, State.setProg_prog_self, noSourceTest_inactive inactive]
  exact (law.noSourceAt p).trans (noSourceTest_inactive inactive)

theorem SourceLaw.markSuspect (law : SourceLaw s) (p : ProgId) (r : Option Rank) : SourceLaw (markSuspect p r s) := by
  cases r with
  | none => exact law
  | some r => exact law.setMark p r true

theorem SourceLaw.silenceTrigger (law : SourceLaw s) (p : ProgId) : SourceLaw (silenceTrigger p s) := by
  have fades (c : SwapCause) (r : Option Rank) (u : State) (law : SourceLaw u) :
      SourceLaw (u.onProg p (·.startFadeOut c r)) :=
    ((SourcesSame.refl u).onProg (fun g => g.startFadeOut_sameSource c r) p).law law
  unfold Machine.silenceTrigger
  dsimp only
  split
  · exact law
  · split
    · split
      · exact law.markSuspect p _
      · exact fades _ _ _ (law.markSuspect p _)
    · refine ((SourcesSame.refl _).onProg (fun g => ?_) p).law (law.markSuspect p _)
      unfold Program.silencedFadeOut
      split
      · exact ⟨rfl, rfl, rfl, rfl⟩
      · exact .refl g
    · split
      · exact fades _ _ _ (law.markSuspect p _)
      · exact law.markSuspect p _

end

/-! ## Feed health (R62, R63) -/

/-- A work done for each program in turn, which acts on that program alone: what it makes of each is what holds at the
end. -/
theorem forEach_progs {P R : State → ProgId → Prop} {f : ProgId → State → State} (effect : ∀ p s, ProgEffect p s (f p s))
    (establish : ∀ p s, R s p → P (f p s) p) (keepR : ∀ {p q s t}, ProgEffect p s t → q ≠ p → R s q → R t q)
    (keepP : ∀ {p q s t}, ProgEffect p s t → q ≠ p → P s q → P t q) {s : State} (h : ∀ p, R s p) (p : ProgId) :
    P (forEach allProgs f s) p := by
  suffices ∀ (l : List ProgId) (s : State), l.Nodup → (∀ q ∈ l, R s q) → (∀ q, q ∉ l → P s q) →
      ∀ q, P (forEach l f s) q from
    this allProgs s (List.nodup_finRange 8) (fun q _ => h q) (fun q hq => absurd (List.mem_finRange q) hq) p
  intro l
  induction l with
  | nil => exact fun s _ _ done q => done q (by simp)
  | cons x l ih =>
    intro s nodup todo done
    obtain ⟨fresh, nodup⟩ := List.nodup_cons.1 nodup
    refine ih (f x s) nodup (fun q hq => ?_) fun q hq => ?_
    · exact keepR (effect x s) (fun e => fresh (e ▸ hq)) (todo q (List.mem_cons_of_mem _ hq))
    · by_cases e : q = x
      · subst e; exact establish q s (todo q List.mem_cons_self)
      · exact keepP (effect x s) e (done q (by simp [e, hq]))

/-- A program is to be reached by a feed's health change: only NO_SOURCE is open, and only where it names the feed and
runs or stops. -/
structure Reachable (f : FeedId) (s : State) (p : ProgId) : Prop where
  backup : BackupAt s p
  noSource : (s.prog p).namesFeed f = false ∨ (s.prog p).active = false → NoSourceAt s p

theorem healthReaches_law {f : FeedId} {p : ProgId} {s : State} (h : Reachable f s p) :
    NoSourceAt (healthReaches f p s) p ∧ BackupAt (healthReaches f p s) p := by
  have reached : ∀ u, (u = if (s.prog p).namesFeed f then eligibilityEvent p s else s) → NoSourceAt u p ∧ BackupAt u p := by
    rintro u rfl
    split
    · next names =>
      cases active : (s.prog p).active with
      | true =>
        have same := eligibilityEvent_same active
        exact ⟨same.noSourceAt (judgeNoSource_noSourceAt p s), same.backupAt (judgeNoSource_backupAt h.backup)⟩
      | false =>
        unfold eligibilityEvent
        rw [active, if_neg Bool.false_ne_true]
        exact ⟨h.noSource (.inr active), h.backup⟩
    · next apart => exact ⟨h.noSource (.inl (by simpa using apart)), h.backup⟩
  unfold healthReaches
  dsimp only
  generalize hu : (if (s.prog p).namesFeed f then eligibilityEvent p s else s) = u
  obtain ⟨noSource, backup⟩ := reached u hu.symm
  split
  · exact ⟨noSource, backup⟩
  · have triggered (b : Bool) : SourcesSame u (feedTrigger f b p u) := by
      unfold feedTrigger
      dsimp only
      split
      · exact (SourcesSame.refl u).onProg (fun g => g.triggered_sameSource .failover) p
      · exact .refl u
    exact ⟨(triggered _).noSourceAt noSource, (triggered _).backupAt backup⟩

theorem SourceLaw.judgeHealth {s : State} (law : SourceLaw s) (f : FeedId) : SourceLaw (judgeHealth f s) := by
  unfold Machine.judgeHealth
  dsimp only
  split
  · exact law
  · refine (sourceLaw_iff _).2 (forEach_progs (R := Reachable f)
      (P := fun s p => NoSourceAt s p ∧ BackupAt s p) (fun p s => .healthReaches f p s)
      (fun p s h => healthReaches_law h) ?_ ?_ fun p => ?_)
    · intro p q s t effect hq h
      have same := effect.sourceSame hq
      refine ⟨same.backupAt h.backup, fun still => same.noSourceAt (h.noSource ?_)⟩
      rw [effect.prog q hq] at still
      exact still
    · exact fun effect hq h =>
        ⟨(effect.sourceSame hq).noSourceAt h.1, (effect.sourceSame hq).backupAt h.2⟩
    · refine ⟨law.backupAt p, fun still => ?_⟩
      obtain apart | inactive := still
      · refine SourceSame.noSourceAt (s := s) ⟨.refl _, rfl, rfl, fun g names => ?_⟩ (law.noSourceAt p)
        have hg : g ≠ f := by
          rintro rfl
          exact Bool.false_ne_true (apart.symm.trans names)
        rw [State.setFeed_feed_ne hg]
      · exact (law.noSourceAt p).trans ((noSourceTest_inactive inactive).trans (noSourceTest_inactive inactive).symm)

theorem SourceLaw.handOver {s : State} (law : SourceLaw s) (e : EntryId) (o : Handover) : SourceLaw (handOver e o s) := by
  unfold Machine.handOver
  split
  · split
    · exact law
    · exact law.judgeHealth _
    · split
      · exact law.silenceTrigger _
      · exact law
    · exact law
    · exact law
  · exact law

/-- A condition other than the two takes a value, with all that its entry hands over. -/
theorem SourceLaw.setCond {s : State} (law : SourceLaw s) {e : EntryId} (noSource : ∀ p, e ≠ progEntry p .noSource)
    (onBackup : ∀ p, e ≠ progEntry p .onBackup) (v : Bool) : SourceLaw (setCond e v s) :=
  SourceLaw.handOver (((SourcesSame.refl s).follow noSource onBackup v).law law) e _

theorem SourceLaw.setFeedCond {s : State} (law : SourceLaw s) (f : FeedId) (k : FeedCond) (v : Bool) :
    SourceLaw (setFeedCond f k v s) :=
  law.setCond (fun _ => feedEntry_ne_progEntry _ _ _ _) (fun _ => feedEntry_ne_progEntry _ _ _ _) v

theorem SourceLaw.setSilence {s : State} (law : SourceLaw s) (p : ProgId) (v : Bool) :
    SourceLaw (setProgCond p .silence v s) :=
  law.setCond (fun _ => progEntry_ne (by decide) _ _) (fun _ => progEntry_ne (by decide) _ _) v

theorem SourceLaw.expireRaise {s : State} (law : SourceLaw s) (e : EntryId) : SourceLaw (expireRaise e s) := by
  unfold Machine.expireRaise
  split
  · exact (((SourcesSame.refl s).entryEffect (.raiseEntry e s)).law law).handOver e _
  · exact law

theorem SourceLaw.expireClear {s : State} (law : SourceLaw s) (e : EntryId) : SourceLaw (expireClear e s) := by
  unfold Machine.expireClear
  split
  · exact (((SourcesSame.refl s).entryEffect (.releaseEntry e s)).law law).handOver e _
  · exact law

/-! ## The work of a feed, an output sample and a block close -/

theorem SourceLaw.feedSteps {s t : State} {f : FeedId} (law : SourceLaw s) (h : FeedSteps f s t) : SourceLaw t := by
  refine h.keeps law (fun u x healthy _ _ law => ((SourcesSame.refl u).setFeed healthy).law law)
    (fun u k v law => law.setFeedCond f k v) (fun u c law => ?_) fun u law => law.judgeHealth f
  have judged : SourceLaw (Machine.setFeedCond f .srcUnlocked (c.state == .track)
      (u.setFeed f { u.feed f with conv := c })) :=
    (((SourcesSame.refl u).setFeed (f := f) (x := { u.feed f with conv := c }) rfl).law law).setFeedCond _ _ _
  have realigned (p : ProgId) (a b : State) (h : SourcesSame a b) : SourcesSame a (realign f p b) := by
    unfold realign
    split
    · exact h.recomputeDelay p
    · exact h
  unfold changeConverter classEvent
  dsimp only
  split
  · exact judged
  · exact (SourcesSame.forEach (fun p t h => realigned p _ t h) _ ((SourcesSame.refl _).pushNotice ..)).law judged

theorem SourceLaw.outputSample {s : State} (law : SourceLaw s) : SourceLaw (outputSample s) := by
  have converted : ∀ (f : FeedId) (t : State), SourceLaw t → SourceLaw (converterSample f t) := fun f t law => by
    have kept : SourceLaw (t.setFeed f { t.feed f with conv := (t.feed f).conv.advance.1 }) :=
      ((SourcesSame.refl t).setFeed (x := { t.feed f with conv := (t.feed f).conv.advance.1 }) rfl).law law
    unfold converterSample keepConverter
    dsimp only
    split
    · exact kept.setFeedCond _ _ _
    · exact kept
  have advanced := forEach_induction (P := SourceLaw) converted allFeeds _
    (((SourcesSame.refl s).passTicks (Config.ticksPerSample - s.tick)).law law)
  unfold Machine.outputSample
  dsimp only
  generalize forEach allFeeds converterSample _ = u at advanced ⊢
  have sampled := SourcesSame.forEach (fun p t h => h.programSample (allFeeds.map fun f => (u.feed f).conv.delivered) p)
    allProgs (.refl u)
  generalize forEach allProgs _ u = v at sampled ⊢
  exact (sampled.other rfl rfl rfl).law advanced

theorem SourceLaw.silenceStep {s : State} (law : SourceLaw s) (p : ProgId) : SourceLaw (silenceStep p s) := by
  have timed (n : Nat) : SourceLaw (s.onProg p fun g => { g with loud := { g.loud with silenceTimer := n } }) :=
    (SourcesSame.refl s).loud.law law
  unfold Machine.silenceStep
  dsimp only
  repeat' split
  · exact law
  · exact law
  · exact (timed _).setSilence _ _
  · exact (timed _).setSilence _ _
  · exact timed _

theorem SourceLaw.closeController {s : State} (law : SourceLaw s) (p : ProgId) : SourceLaw (closeController p s) := by
  have activated := ((SourcesSame.refl s).activateSettings p).law law
  unfold Machine.closeController closeMeasured closeUnmeasured
  dsimp only
  split
  · exact (SourcesSame.refl _).loud.law ((((SourcesSame.refl _).loud.law activated)).silenceStep p)
  · refine ((SourcesSame.refl _).onProg (fun g => ?_) p).law activated
    split
    · exact ⟨rfl, rfl, rfl, rfl⟩
    · exact .refl g

theorem SourceLaw.blockClose {s : State} (law : SourceLaw s) (o : CloseOrder) : SourceLaw (blockClose o s) := by
  refine forEach_induction (P := SourceLaw) (fun w t law => ?_) (closeWorks o) _
    (((SourcesSame.refl s).other rfl rfl rfl).law law)
  cases w with
  | slip f => exact law.setFeedCond _ _ _
  | measure p => exact law.closeController p
  | levels =>
    have applied := SourcesSame.forEach (f := formAtClose (appliedGainOf t)) (fun p u h => h.loud) allProgs (.refl t)
    exact (SourcesSame.forEach (fun p u h => h.judgeLevels (formsBlock (s.prog p)) p) allProgs applied).law law
  | alarm e =>
    have counted : SourceLaw (countTimer e t) := by
      refine SourcesSame.law (s := t) ?_ law
      unfold countTimer
      dsimp only
      split
      · exact (SourcesSame.refl t).setEntry ..
      · exact (SourcesSame.refl t).setEntry ..
      · exact .refl t
      · exact .refl t
    unfold closeWork closeAlarm
    dsimp only
    split
    · exact counted
    · exact (counted.expireRaise e).expireClear e
  | returns p => exact ((SourcesSame.refl t).closeReturn _ p).law law

/-! ## Programs -/

section
variable {s : State} {p : ProgId}

/-- A program that runs neither before nor after a change of its record. -/
theorem SourceLaw.idle (law : SourceLaw s) {x : Program} (before : (s.prog p).active = false) (after : x.active = false) :
    SourceLaw (s.setProg p x) := by
  refine ((law.others p).prog (.setProg p s x)).law ?_ ?_
  · rw [NoSourceAt, State.setProg_prog_self, noSourceTest_inactive after]
    exact (law.noSourceAt p).trans (noSourceTest_inactive before)
  · rw [BackupAt, State.setProg_prog_self, Program.backup_inactive after]
    exact (law.backupAt p).trans (Program.backup_inactive before)

/-- The two conditions made false with a run's end (R54). -/
theorem SourceOthers.clear (others : SourceOthers p s) (ended : (s.prog p).active = false) :
    SourceLaw (setProgCond p .onBackup false (setProgCond p .noSource false s)) := by
  have prog : (setProgCond p .onBackup false (setProgCond p .noSource false s)).prog p = s.prog p := by
    rw [setProgCond_prog (by decide), setProgCond_prog (by decide)]
  refine ((others.prog (.setProgCond (by decide) p false s)).prog (.setProgCond (by decide) p false _)).law ?_ ?_
  · rw [NoSourceAt, prog, noSourceTest_inactive ended]
    simp [setProgCond_progCond]
  · rw [BackupAt, prog, Program.backup_inactive ended]
    simp [setProgCond_progCond]

theorem endStopFade_sourceLaw (others : SourceOthers p s) : SourceLaw (endStopFade p s) := by
  have ended : ((s.onProg p Program.runEnded).prog p).active = false := by
    rw [State.onProg_eq, State.setProg_prog_self]; rfl
  have cleared := (others.prog (.onProg p s Program.runEnded)).clear ended
  unfold endStopFade clearRunConds
  exact (((SourcesSame.refl _).clearMeasureConds p).pushNotice ..).law cleared

theorem Program.stopped_sameSource {g : Program} (h : g.active = true) : g.SameSource g.stopped := by
  refine ⟨by rw [h]; rfl, ?_, rfl, rfl⟩
  unfold Program.currentRank Program.stopped
  dsimp only
  split
  · unfold Program.currentRank
    cases g.stack.getLast? <;> rfl
  · rfl

theorem stopProgram_sourceLaw (law : SourceLaw s) (running : (s.prog p).state = .running) :
    SourceLaw (stopProgram p s) := by
  have active : (s.prog p).active = true := by simp [Program.active, running]
  have stopped : SourceLaw (membershipEvent p (s.onProg p Program.stopped)) :=
    (((SourcesSame.refl s).setProg (Program.stopped_sameSource active)).gain (.membershipEvent p _)).law law
  unfold stopProgram
  dsimp only
  split
  · exact endStopFade_sourceLaw (stopped.others p)
  · exact stopped

theorem startProgram_sourceLaw (law : SourceLaw s) : SourceLaw (startProgram p s) := by
  have others := (law.others p).prog (.onProg p s (·.started (startRank s (s.prog p))))
  have started : SourcesSame (judgeNoSource p (s.onProg p (·.started (startRank s (s.prog p)))))
      (sourceChanged p none (some (startRank s (s.prog p))) none (snapGain p (membershipEvent p (startedState p s)))) := by
    unfold startedState sourceChanged snapGain
    exact (((((SourcesSame.refl _).startDelay p).clearSilence p).gain (.membershipEvent p _)).loud).pushNotice ..
  rw [startProgram_eq]
  exact ((started.sourceOthers (others.prog (.judgeNoSource p _))).prog (.judgeOnBackup p _)).law
    (judgeOnBackup_noSourceAt (started.noSourceAt (judgeNoSource_noSourceAt p _))) (judgeOnBackup_backupAt p _)

theorem keepSet_sourceLaw (law : SourceLaw s) (c : SwapCause) : SourceLaw (keepSet p c s) := by
  have kept (g : Program) (w : Swap) : g.SameSource { g with swap := w } := ⟨rfl, rfl, rfl, rfl⟩
  exact ((((SourcesSame.refl s).setProg (kept (s.prog p) _)).law law).unjudged p).judge

/-- A SWITCH that changes the stack judges both conditions (R68). -/
theorem changeSet_sourceLaw (law : SourceLaw s) (l : List Rank) (c : SwapCause) : SourceLaw (changeSet p l c s) := by
  unfold changeSet sourceChanged
  dsimp only
  generalize hu : s.onProg p _ = u
  have others : SourceOthers p u := by
    subst hu
    exact (law.others p).prog (.onProg p s _)
  have moved := ((SourcesSame.refl u).recomputeDelay p).sourceOthers others
  have judged : Unjudged p (judgeOnBackup p (recomputeDelay p u)) :=
    ⟨moved.prog (.judgeOnBackup p _), judgeOnBackup_backupAt p _⟩
  exact ((SourcesSame.refl _).pushNotice ..).law judged.judge

theorem failoverSwitch_sourceLaw (law : SourceLaw s) (c : SwapCause) : SourceLaw (failoverSwitch p c s) := by
  unfold failoverSwitch
  dsimp only
  split
  · exact keepSet_sourceLaw law c
  · split
    · exact keepSet_sourceLaw law c
    · exact changeSet_sourceLaw law _ c

theorem swapSwitch_sourceLaw (law : SourceLaw s) : SourceLaw (swapSwitch p s) := by
  unfold swapSwitch
  split
  · unfold returnSwitch
    dsimp only
    split
    · exact changeSet_sourceLaw law _ _
    · exact failoverSwitch_sourceLaw law _
  · split
    · next r _ =>
      unfold selectSwitch
      dsimp only
      split
      · exact changeSet_sourceLaw (law.setMark p r false) _ _
      · exact failoverSwitch_sourceLaw (law.setMark p r false) _
    · exact failoverSwitch_sourceLaw law _
  all_goals exact failoverSwitch_sourceLaw law _

theorem storeSet_sourceLaw (law : SourceLaw s) (r : Rank) (v : Option (List SlotSource)) : SourceLaw (storeSet p r v s) := by
  rw [storeSet_eq]
  refine Unjudged.event ((law.unjudged p).onProg (g := (·.withSet r v)) rfl) fun inactive => ?_
  rw [State.onProg_eq, State.setProg_prog_self] at inactive
  rw [NoSourceAt, State.onProg_eq, State.setProg_prog_self, noSourceTest_inactive inactive]
  exact (law.noSourceAt p).trans (noSourceTest_inactive inactive)

theorem selectCurrent_sourceLaw (law : SourceLaw s) {r : Rank} (current : (s.prog p).currentRank = some r) :
    SourceLaw (selectCurrent p r s) := by
  have alone : (s.prog p).SameSource ({ s.prog p with stack := [r] } : Program).zeroReturn :=
    ⟨rfl, current.symm, rfl, rfl⟩
  exact (((SourcesSame.refl s).setProg alone).law law).setMark p r false

theorem returnPages_sourceLaw (law : SourceLaw s) (p : ProgId) : SourceLaw (returnPages p s) :=
  ((SourcesSame.refl s).delayed.other rfl rfl rfl).law law

end

/-- A move of the monitor and its condition touches no program (R39). -/
theorem SourceLaw.setHouseRef {s : State} (law : SourceLaw s) (m : Monitor) (v : Bool) :
    SourceLaw (Machine.setCond houseRefEntry v { s with monitor := m }) := by
  have moved : SourceLaw { s with monitor := m } := law
  exact SourceLaw.setCond moved (fun p => houseRef_ne p _) (fun p => houseRef_ne p _) v

theorem Work.sourceLaw {s t : State} (h : Work s t) (law : SourceLaw s) : SourceLaw t := by
  have here := SourcesSame.refl s
  cases h with
  | none => exact law
  | storeFeedConfig f en ex par val =>
    have configured : SourceLaw (configurePort f en ex par val s) := (here.setReception f _ _).law law
    exact configured.feedSteps (storeFeedConfig_steps f en ex par val s)
  | clearFeedCounters f =>
    unfold Machine.clearFeedCounters
    exact (here.setReception f _ _).law law
  | @defineProgram p _ c ws idle =>
    have before : ((returnPages p s).prog p).active = false := by
      rw [returnPages_prog_self]
      unfold Program.idle at idle
      unfold Program.active
      cases e : (s.prog p).state <;> simp [e] at idle ⊢
    exact ((SourcesSame.refl _).clearMeasureConds p).law
      ((returnPages_sourceLaw law p).idle before (x := { Program.redefined c ws with
        swap := ((returnPages p s).prog p).swap, outLevel := ((returnPages p s).prog p).outLevel
        outDir := ((returnPages p s).prog p).outDir }) rfl)
  | @clearProgram p _ state =>
    have before : ((returnPages p s).prog p).active = false := by
      rw [returnPages_prog_self]
      simp [Program.active, state]
    exact (((SourcesSame.refl _).setProgCond p false).setProgCond p false).law
      ((returnPages_sourceLaw law p).idle before (x := { (returnPages p s).prog p with
        state := .undefined, slots := 0, weights := [], sets := .replicate 4 Option.none }) rfl)
  | storeSet l _ => exact storeSet_sourceLaw law _ _
  | startProgram _ _ _ => exact startProgram_sourceLaw law
  | stopProgram state => exact stopProgram_sourceLaw law state
  | @restartProgram p _ _ =>
    have rerun (g : Program) : g.SameSource g.rerun := ⟨rfl, rfl, rfl, rfl⟩
    exact ((((here.setProg (rerun (s.prog p))).clearSilence p).startDelay p).gain (.membershipEvent p _)).law law
  | selectCurrent _ _ current => exact selectCurrent_sourceLaw law current
  | @beginSelect p r _ _ => exact (here.onProg (fun g => g.startFadeOut_sameSource .select (some r)) p).law law
  | @storeFailover p _ auto hold reset =>
    refine (here.onProg (fun g => ?_) p).law law
    unfold Program.storeFailover
    dsimp only
    split <;> exact ⟨rfl, rfl, rfl, rfl⟩
  | storeLoud mode body link _ => exact here.loud.law law
  | restartMeasurement p => exact (here.loud.clearSilence p).law law
  | rebuildChain P _ _ => exact (here.delayed.other rfl rfl rfl).law law
  | storeTarget p ltgt slew n => exact (here.delayed.recomputeDelay p).law law
  | @storeEntryConfig e _ c _ _ _ =>
    have stored : SourceLaw (s.setEntry e ((s.entry e).configured c)) := (here.setEntry e _).law law
    unfold Machine.storeEntryConfig
    dsimp only
    split
    · split
      · exact stored.judgeHealth _
      · exact stored
      · exact stored
    · exact stored
  | acknowledge es => exact (SourcesSame.forEach (fun e t h => h.setEntry e _) es here).law law
  | frameEdge f first => exact law.feedSteps (FeedSteps.refl.frameEdge first)
  | subframeReceived f w => exact law.feedSteps (FeedSteps.refl.subframeReceived w)
  | declareLoss first _ => exact law.feedSteps (FeedSteps.refl.declareLoss first)
  | outputSample => exact law.outputSample
  | passTicks n => exact (here.passTicks n).law law
  | endStartFade p =>
    exact (here.onProg (g := fun g => { g with outDir := .none }) (fun _ => ⟨rfl, rfl, rfl, rfl⟩) p).law law
  | @endStopFade p _ _ => exact endStopFade_sourceLaw (law.others p)
  | swapSwitch _ => exact swapSwitch_sourceLaw law
  | endSwap p =>
    refine (here.onProg (fun g => ?_) p).law law
    unfold Program.endSwap
    dsimp only
    split <;> exact ⟨rfl, rfl, rfl, rfl⟩
  | blockClose o => exact law.blockClose o
  | silenceTimeout _ => exact law.setSilence _ true
  | beginReturn p =>
    unfold Machine.beginReturn
    split
    · exact (here.onProg (g := Program.startReturn) (fun _ => ⟨rfl, rfl, rfl, rfl⟩) p).law law
    · exact law
  | @slewComplete p _ _ => exact (here.slewComplete p).law law
  | cutJump p => exact here.delayed.law law
  | cutInEnd p => exact (here.cutInEnd p).law law
  | expireRaise e => exact law.expireRaise e
  | expireClear e => exact law.expireClear e
  | refEdge => exact law.setHouseRef _ false
  | loseRef => exact law.setHouseRef _ true
  | unitRestart =>
    refine (sourceLaw_iff _).2 fun p => ?_
    have inactive : ((Machine.unitRestart s).prog p).active = false := by
      rw [unitRestart_prog]; exact Program.unitRestarted_inactive _
    exact ⟨(unitRestart_cond s _).trans (noSourceTest_inactive inactive).symm,
      (unitRestart_cond s _).trans (Program.backup_inactive inactive).symm⟩
  | leaveReset u b =>
    refine (sourceLaw_iff _).2 fun p => ?_
    have inactive : ((Machine.leaveReset u b s).prog p).active = false := by rw [leaveReset_prog]; rfl
    exact ⟨(leaveReset_cond u b s _).trans (noSourceTest_inactive inactive).symm,
      (leaveReset_cond u b s _).trans (Program.backup_inactive inactive).symm⟩

/-- Settles O60: whatever changes a program's run, its stack, a set, a mark or a feed's health judges the two
conditions again, and nothing else touches what they read. -/
theorem sourceLawKept : Obligations.SourceLawKept := fun _ _ sound h =>
  step_keeps (fun s _ same => ((SourcesSame.refl s).other same.feeds same.progs same.conds).law)
    (fun _ _ w => w.sourceLaw) sound.source h

end Sys2Proof.Machine
end

section
/-! PROOFS. The latency equation (R118, R119, R125, R126): what the law of one program's delay reads, what leaves that as
it stands (`DelaysSame`), and that a recomputation, a start and the events of a delay operation establish it. -/
namespace Sys2Proof.Machine

/-! ## The law of one program -/

/-- The delay law of one program (R116, R118, R119, R125, R126). -/
def DelayAt (s : State) (p : ProgId) : Prop :=
  ((s.prog p).active = true →
    1 ≤ (s.prog p).delay.reserve ∧ (s.prog p).delay.dtgt = delayTargetOf s (s.prog p) ∧
      (s.progCond p .latencyUnder = true ↔ wantedDelay s (s.prog p) < 0) ∧
      (s.progCond p .latencyOver = true ↔ ringBound s (s.prog p) < wantedDelay s (s.prog p)) ∧
      ((s.prog p).delay.dcur : Int) ≤ ringBound s (s.prog p) ∧
      (s.prog p).delay.writePos < (s.prog p).delay.ringSize ∧
      (s.prog p).delay.flushCounter ≤ (s.prog p).delay.ringSize ∧
      ((s.prog p).state = .running → (s.prog p).delay.op = .none → (s.prog p).delay.dcur = (s.prog p).delay.dtgt)) ∧
    ((s.prog p).active = false → s.progCond p .latencyUnder = false ∧ s.progCond p .latencyOver = false)

theorem DelayLaw.own {s : State} (law : DelayLaw s) (p : ProgId) : DelayAt s p := law p

/-- What is left of the law of one program where the latencies of its set may have changed: enough for a recomputation
to establish it. -/
def Recomputable (s : State) (p : ProgId) : Prop :=
  ((s.prog p).active = true →
    1 ≤ (s.prog p).delay.reserve ∧ (s.prog p).delay.writePos < (s.prog p).delay.ringSize ∧
      (s.prog p).delay.flushCounter ≤ (s.prog p).delay.ringSize ∧
      ((s.prog p).state = .running → (s.prog p).delay.op = .none → (s.prog p).delay.dcur = (s.prog p).delay.dtgt)) ∧
    ((s.prog p).active = false → s.progCond p .latencyUnder = false ∧ s.progCond p .latencyOver = false)

theorem DelayAt.recomputable {s : State} {p : ProgId} (law : DelayAt s p) : Recomputable s p := by
  refine ⟨fun active => ?_, law.2⟩
  obtain ⟨reserve, -, -, -, -, write, flush, settled⟩ := law.1 active
  exact ⟨reserve, write, flush, settled⟩

/-! ## The terms of the equation -/

theorem listMax_le {l : List Nat} {b : Nat} (h : ∀ x ∈ l, x ≤ b) : listMax l ≤ b := by
  suffices ∀ (l : List Nat) (a : Nat), a ≤ b → (∀ x ∈ l, x ≤ b) → l.foldl max a ≤ b from this l 0 (Nat.zero_le b) h
  intro l
  induction l with
  | nil => exact fun a ha _ => ha
  | cons x l ih =>
    exact fun a ha h => ih _ (max_le ha (h x List.mem_cons_self)) fun y hy => h y (List.mem_cons_of_mem x hy)

theorem lsrc_bounds (c : Option RateClass) : 18 ≤ lsrc c ∧ lsrc c ≤ 50 := by
  cases c with
  | none => decide
  | some k => cases k <;> decide

theorem slotLatency_bounds {s : State} {g : Program} {x : Nat} (h : x ∈ latencies s g) : 18 ≤ x ∧ x ≤ 50 := by
  obtain ⟨y, -, rfl⟩ := List.mem_map.1 h
  exact lsrc_bounds _

theorem trimMax_le (s : State) (g : Program) : trimMax s g ≤ 32 := by
  refine listMax_le fun x hx => ?_
  obtain ⟨y, hy, rfl⟩ := List.mem_map.1 hx
  have most : lsrcMax s g ≤ 50 := listMax_le fun z hz => (slotLatency_bounds hz).2
  have least := (slotLatency_bounds hy).1
  omega

/-- A ring of one page or more takes every trim. -/
theorem ringBound_nonneg {g : Program} (reserve : 1 ≤ g.delay.reserve) (s : State) : 0 ≤ ringBound s g := by
  have trim := trimMax_le s g
  have pages : 1 * Config.pageSamples ≤ g.delay.ringSize := Nat.mul_le_mul_right _ reserve
  have size : Config.pageSamples = 1024 := rfl
  unfold ringBound
  omega

theorem delayTargetOf_le {g : Program} (reserve : 1 ≤ g.delay.reserve) (s : State) :
    (delayTargetOf s g : Int) ≤ ringBound s g := by
  obtain ⟨low, high⟩ := clampInt_mem (ringBound_nonneg reserve s) (wantedDelay s g)
  unfold delayTargetOf
  rw [Int.toNat_of_nonneg low]
  exact high

/-- Two programs, each in a state, with the same terms in the latency equation. -/
structure SameEquation (s : State) (g : Program) (t : State) (h : Program) : Prop where
  latencies : latencies t h = latencies s g
  ltgt : h.delay.ltgt = g.delay.ltgt
  reserve : h.delay.reserve = g.delay.reserve

namespace SameEquation
variable {s t : State} {g h : Program}

theorem ringSize (e : SameEquation s g t h) : h.delay.ringSize = g.delay.ringSize := by
  unfold DelayRec.ringSize; rw [e.reserve]

theorem wanted (e : SameEquation s g t h) : wantedDelay t h = wantedDelay s g := by
  unfold wantedDelay lsrcMax; rw [e.latencies, e.ltgt]

theorem bound (e : SameEquation s g t h) : ringBound t h = ringBound s g := by
  unfold ringBound trimMax trims lsrcMax; rw [e.latencies, e.ringSize]

theorem target (e : SameEquation s g t h) : delayTargetOf t h = delayTargetOf s g := by
  unfold delayTargetOf; rw [e.wanted, e.bound]

end SameEquation

theorem latencies_congr {s t : State} {g h : Program} (current : h.currentSet = g.currentSet)
    (cls : ∀ x ∈ g.currentSet, (t.feed x.feed).conv.cls = (s.feed x.feed).conv.cls) : latencies t h = latencies s g := by
  unfold latencies slotLatency
  rw [current]
  exact List.map_congr_left fun x hx => by rw [cls x hx]

/-! ## What the law reads -/

/-- Two records of a program agree on its state, its delay record, and, where it runs or stops, its current set. -/
structure Program.SameDelay (g h : Program) : Prop where
  state : h.state = g.state
  current : g.active = true → h.currentSet = g.currentSet
  delay : h.delay = g.delay

theorem Program.SameDelay.refl (g : Program) : g.SameDelay g := ⟨rfl, fun _ => rfl, rfl⟩

theorem Program.SameDelay.active {g h : Program} (k : g.SameDelay h) : h.active = g.active := by
  unfold Program.active; rw [k.state]

theorem Program.SameDelay.trans {a b c : Program} (h : a.SameDelay b) (g : b.SameDelay c) : a.SameDelay c :=
  ⟨g.state.trans h.state, fun active => (g.current (h.active.trans active)).trans (h.current active),
    g.delay.trans h.delay⟩

/-- A change that keeps the state, the stack, the sets and the delay record. -/
theorem Program.SameDelay.of {g h : Program} (state : h.state = g.state) (stack : h.stack = g.stack)
    (sets : h.sets = g.sets) (delay : h.delay = g.delay) : g.SameDelay h :=
  ⟨state, fun _ => by unfold Program.currentSet Program.currentRank Program.setAt; rw [stack, sets], delay⟩

/-- Two states agree on all that the law of one program reads. -/
structure DelaySame (p : ProgId) (s t : State) : Prop where
  prog : (s.prog p).SameDelay (t.prog p)
  low : t.progCond p .latencyUnder = s.progCond p .latencyUnder
  high : t.progCond p .latencyOver = s.progCond p .latencyOver
  cls : (s.prog p).active = true →
    ∀ x ∈ (s.prog p).currentSet, (t.feed x.feed).conv.cls = (s.feed x.feed).conv.cls

theorem DelaySame.equation {p : ProgId} {s t : State} (h : DelaySame p s t) (active : (s.prog p).active = true) :
    SameEquation s (s.prog p) t (t.prog p) :=
  ⟨latencies_congr (h.prog.current active) (h.cls active), by rw [h.prog.delay], by rw [h.prog.delay]⟩

theorem DelaySame.delayAt {p : ProgId} {s t : State} (h : DelaySame p s t) (law : DelayAt s p) : DelayAt t p := by
  refine ⟨fun active => ?_, fun inactive => ?_⟩
  · rw [h.prog.active] at active
    have e := h.equation active
    rw [h.prog.delay, h.prog.state, h.low, h.high, e.wanted, e.bound, e.target]
    exact law.1 active
  · rw [h.prog.active] at inactive
    rw [h.low, h.high]
    exact law.2 inactive

theorem Recomputable.congr {p : ProgId} {s t : State} (law : Recomputable s p) (prog : (s.prog p).SameDelay (t.prog p))
    (low : t.progCond p .latencyUnder = s.progCond p .latencyUnder)
    (high : t.progCond p .latencyOver = s.progCond p .latencyOver) : Recomputable t p := by
  unfold Recomputable
  rw [prog.active, prog.delay, prog.state, low, high]
  exact law

/-- Another program's work leaves what the law reads. -/
theorem ProgEffect.delaySame {p q : ProgId} {s t : State} (h : ProgEffect p s t) (hq : q ≠ p) : DelaySame q s t := by
  have cond (k : ProgCond) : t.progCond q k = s.progCond q k := h.cond _ fun l e => hq (progEntry_inj e).1
  refine ⟨?_, cond _, cond _, fun _ x _ => by rw [State.feed_congr h.feeds]⟩
  rw [h.prog q hq]
  exact .refl _

/-- The law of every program but one. -/
def DelayOthers (p : ProgId) (s : State) : Prop := ∀ q, q ≠ p → DelayAt s q

theorem DelayLaw.others {s : State} (law : DelayLaw s) (p : ProgId) : DelayOthers p s := fun q _ => law q

theorem DelayOthers.law {s : State} {p : ProgId} (others : DelayOthers p s) (own : DelayAt s p) : DelayLaw s := fun q => by
  by_cases h : q = p
  · subst h; exact own
  · exact others q h

theorem DelayOthers.prog {p : ProgId} {s t : State} (others : DelayOthers p s) (h : ProgEffect p s t) : DelayOthers p t :=
  fun q hq => (h.delaySame hq).delayAt (others q hq)

/-- Two states agree on all that the law reads. -/
structure DelaysSame (s t : State) : Prop where
  prog : ∀ p, (s.prog p).SameDelay (t.prog p)
  low : ∀ p, t.progCond p .latencyUnder = s.progCond p .latencyUnder
  high : ∀ p, t.progCond p .latencyOver = s.progCond p .latencyOver
  cls : ∀ f, (t.feed f).conv.cls = (s.feed f).conv.cls

namespace DelaysSame

variable {s t u : State}

theorem refl (s : State) : DelaysSame s s := ⟨fun _ => .refl _, fun _ => rfl, fun _ => rfl, fun _ => rfl⟩

theorem trans {a b c : State} (h : DelaysSame a b) (g : DelaysSame b c) : DelaysSame a c :=
  ⟨fun p => (h.prog p).trans (g.prog p), fun p => (g.low p).trans (h.low p),
    fun p => (g.high p).trans (h.high p), fun f => (g.cls f).trans (h.cls f)⟩

theorem at_ (h : DelaysSame s t) (p : ProgId) : DelaySame p s t :=
  ⟨h.prog p, h.low p, h.high p, fun _ x _ => h.cls x.feed⟩

theorem law (h : DelaysSame s t) (law : DelayLaw s) : DelayLaw t := fun p => (h.at_ p).delayAt (law p)

theorem others {p : ProgId} (h : DelaysSame s t) (others : DelayOthers p s) : DelayOthers p t :=
  fun q hq => (h.at_ q).delayAt (others q hq)

theorem other (h : DelaysSame s t) (feeds : u.feeds = t.feeds) (progs : u.progs = t.progs) (conds : u.conds = t.conds) :
    DelaysSame s u :=
  h.trans ⟨fun p => by rw [State.prog_congr progs]; exact .refl _, fun _ => State.cond_congr conds _,
    fun _ => State.cond_congr conds _, fun f => by rw [State.feed_congr feeds]⟩

theorem setProg (h : DelaysSame s t) {p : ProgId} {x : Program} (same : (t.prog p).SameDelay x) :
    DelaysSame s (t.setProg p x) := by
  refine h.trans ⟨fun q => ?_, fun _ => rfl, fun _ => rfl, fun _ => rfl⟩
  by_cases hq : q = p
  · subst hq; rw [State.setProg_prog_self]; exact same
  · rw [State.setProg_prog_ne hq]; exact .refl _

theorem onProg {g : Program → Program} (same : ∀ x, Program.SameDelay x (g x)) (p : ProgId) (h : DelaysSame s t) :
    DelaysSame s (t.onProg p g) := h.setProg (same _)

theorem setFeed (h : DelaysSame s t) {f : FeedId} {x : Feed} (cls : x.conv.cls = (t.feed f).conv.cls) :
    DelaysSame s (t.setFeed f x) := by
  refine h.trans ⟨fun _ => .refl _, fun _ => rfl, fun _ => rfl, fun g => ?_⟩
  by_cases hg : g = f
  · subst hg; rw [State.setFeed_feed_self]; exact cls
  · rw [State.setFeed_feed_ne hg]

theorem setPort (f : FeedId) (q : Port) (b : Bool) (h : DelaysSame s t) :
    DelaysSame s (t.setFeed f { port := q, conv := (t.feed f).conv, healthy := b }) := h.setFeed rfl

theorem setEntry (e : EntryId) (x : Entry) (h : DelaysSame s t) : DelaysSame s (t.setEntry e x) := h.other rfl rfl rfl

/-- Work of the alarms and the failovers (R62, R71, R142). -/
theorem alarm (h : DelaysSame s t) (w : AlarmEffect t u) : DelaysSame s u := by
  refine h.trans ⟨fun p => ?_, fun _ => ?_, fun _ => ?_, fun f => ?_⟩
  · rw [w.prog p]; exact .of rfl rfl rfl rfl
  · exact w.cond _ fun _ => progEntry_ne (by decide) _ _
  · exact w.cond _ fun _ => progEntry_ne (by decide) _ _
  · rw [w.feed f]

theorem gain (h : DelaysSame s t) (w : GainEffect t u) : DelaysSame s u := by
  refine h.trans ⟨fun p => ?_, fun _ => ?_, fun _ => ?_, fun _ => ?_⟩
  · rw [w.prog p]; exact .of rfl rfl rfl rfl
  all_goals rw [w.rest]; rfl

theorem pushNotice (k : NoticeKind) (src : Source) (d : List Byte) (h : DelaysSame s t) :
    DelaysSame s (pushNotice k src d t) := h.alarm (.pushNotice k src d t)

/-- A condition that is no latency condition takes a value, with all that its entry hands over. -/
theorem setCond {e : EntryId} (low : ∀ p, e ≠ progEntry p .latencyUnder) (high : ∀ p, e ≠ progEntry p .latencyOver)
    (v : Bool) (h : DelaysSame s t) : DelaysSame s (setCond e v t) := by
  refine DelaysSame.alarm (t := t.setCondBit e v) (h.trans ?_) (setCond_effect e v t)
  exact ⟨fun _ => .refl _, fun p => State.setCondBit_cond_ne (low p).symm t v,
    fun p => State.setCondBit_cond_ne (high p).symm t v, fun _ => rfl⟩

theorem setFeedCond (f : FeedId) (k : FeedCond) (v : Bool) (h : DelaysSame s t) : DelaysSame s (setFeedCond f k v t) :=
  h.setCond (fun _ => feedEntry_ne_progEntry _ _ _ _) (fun _ => feedEntry_ne_progEntry _ _ _ _) v

theorem setProgCond {k : ProgCond} (p : ProgId) (v : Bool) (h : DelaysSame s t)
    (other : k ≠ .latencyUnder ∧ k ≠ .latencyOver := by decide) : DelaysSame s (setProgCond p k v t) :=
  h.setCond (fun _ => progEntry_ne other.1 _ _) (fun _ => progEntry_ne other.2 _ _) v

theorem forEach {α : Type} {f : α → State → State} (each : ∀ x t, DelaysSame s t → DelaysSame s (f x t)) (l : List α)
    (h : DelaysSame s t) : DelaysSame s (Machine.forEach l f t) := forEach_induction each l t h

theorem judgeNoSource (p : ProgId) (h : DelaysSame s t) : DelaysSame s (judgeNoSource p t) :=
  h.alarm (.judgeNoSource p t)

theorem judgeOnBackup (p : ProgId) (h : DelaysSame s t) : DelaysSame s (judgeOnBackup p t) := h.setProgCond p _

theorem eligibilityEvent (p : ProgId) (h : DelaysSame s t) : DelaysSame s (eligibilityEvent p t) :=
  h.alarm (.eligibilityEvent p t)

theorem judgeHealth (f : FeedId) (h : DelaysSame s t) : DelaysSame s (judgeHealth f t) := h.alarm (.judgeHealth f t)

theorem setMark (p : ProgId) (r : Rank) (v : Bool) (h : DelaysSame s t) : DelaysSame s (setMark p r v t) :=
  (h.onProg (g := (·.withMark r v)) (fun _ => .of rfl rfl rfl rfl) p).eligibilityEvent p

theorem passTicks (n : Nat) (h : DelaysSame s t) : DelaysSame s (passTicks n t) := by
  have counted := DelaysSame.forEach (f := fun f t => t.onPort f (Port.pass n)) (fun f _ h => h.setPort f _ _) allFeeds h
  unfold Machine.passTicks
  generalize Machine.forEach allFeeds (fun f t => t.onPort f (Port.pass n)) t = u at counted ⊢
  exact counted.other rfl rfl rfl

theorem keepConverter {f : FeedId} {r : Converter × Bool} (cls : r.1.cls = (t.feed f).conv.cls) (h : DelaysSame s t) :
    DelaysSame s (keepConverter f r t) := by
  have kept := h.setFeed (x := { t.feed f with conv := r.1 }) cls
  unfold Machine.keepConverter
  dsimp only
  split
  · exact kept.setFeedCond f _ _
  · exact kept

/-! ### Loudness and swaps -/

theorem loud {p : ProgId} {l : Loudness} (h : DelaysSame s t) :
    DelaysSame s (t.setProg p { t.prog p with loud := l }) := h.setProg (.of rfl rfl rfl rfl)

theorem activateSettings (p : ProgId) (h : DelaysSame s t) : DelaysSame s (activateSettings p t) := by
  unfold Machine.activateSettings
  dsimp only
  split
  · exact h.loud.setProgCond p _
  · exact h.loud

theorem silenceStep (p : ProgId) (h : DelaysSame s t) : DelaysSame s (silenceStep p t) := by
  unfold Machine.silenceStep
  dsimp only
  repeat' split
  · exact h
  · exact h
  · exact h.loud.setProgCond p _
  · exact h.loud.setProgCond p _
  · exact h.loud

theorem closeController (p : ProgId) (h : DelaysSame s t) : DelaysSame s (closeController p t) := by
  have activated := h.activateSettings p
  unfold Machine.closeController closeMeasured closeUnmeasured
  dsimp only
  split
  · exact (activated.loud.silenceStep p).loud
  · refine activated.onProg (fun g => ?_) p
    split
    · exact .of rfl rfl rfl rfl
    · exact .refl g

theorem judgeLevels (formed : Bool) (p : ProgId) (h : DelaysSame s t) : DelaysSame s (judgeLevels formed p t) := by
  have ceiling : DelaysSame s (judgeCeiling p t) := h.loud.setProgCond p _
  unfold Machine.judgeLevels judgeOverLevel
  dsimp only
  repeat' split
  · exact ceiling
  · exact ceiling.setProgCond p _
  · exact ceiling
  · exact h

theorem closeReturn (apart : Bool) (p : ProgId) (h : DelaysSame s t) : DelaysSame s (closeReturn apart p t) := by
  have zeroed (g : Program) : g.SameDelay g.zeroReturn := .of rfl rfl rfl rfl
  have timed (g : Program) (n : Nat) (b : Bool) : g.SameDelay { g with returnTimer := n, returnFell := b } :=
    .of rfl rfl rfl rfl
  have began (g : Program) : g.SameDelay g.startReturn := .of rfl rfl rfl rfl
  have counted : DelaysSame s (countReturn p t) := by
    unfold countReturn
    dsimp only
    split
    · split
      · exact h.setProg (timed _ _ _)
      · exact h.onProg zeroed p
    · exact h.setProg (timed _ _ _)
  unfold Machine.closeReturn beginReturn
  dsimp only
  repeat' split
  · exact counted
  · exact counted.onProg began p
  · exact counted

theorem countTimer (e : EntryId) (h : DelaysSame s t) : DelaysSame s (countTimer e t) := by
  unfold Machine.countTimer
  dsimp only
  split
  · exact h.setEntry ..
  · exact h.setEntry ..
  · exact h
  · exact h

theorem closeWork (o : CloseOrder) (formed : ProgId → Bool) (w : CloseWork) (h : DelaysSame s t) :
    DelaysSame s (closeWork o formed w t) := by
  cases w with
  | slip f => exact h.setFeedCond f _ _
  | measure p => exact h.closeController p
  | levels =>
    have applied := DelaysSame.forEach (f := formAtClose (appliedGainOf t)) (fun p u h => h.loud) allProgs h
    unfold Machine.closeWork closeLevels
    dsimp only
    generalize Machine.forEach allProgs (formAtClose (appliedGainOf t)) t = u at applied ⊢
    exact DelaysSame.forEach (fun p u h => h.judgeLevels (formed p) p) allProgs applied
  | alarm e =>
    unfold Machine.closeWork closeAlarm
    dsimp only
    split
    · exact h.countTimer e
    · exact ((h.countTimer e).alarm (.expireRaise e _)).alarm (.expireClear e _)
  | returns p => exact h.closeReturn _ p

theorem blockClose (o : CloseOrder) (h : DelaysSame s t) : DelaysSame s (blockClose o t) :=
  DelaysSame.forEach (fun w _ h => h.closeWork o _ w) (closeWorks o) (h.other rfl rfl rfl)

theorem keepSet (p : ProgId) (c : SwapCause) (h : DelaysSame s t) : DelaysSame s (keepSet p c t) :=
  (h.onProg (g := fun g => { g with swap := { g.swap with phase := .fadeIn, cause := some c } })
    (fun _ => .of rfl rfl rfl rfl) p).judgeNoSource p

theorem storeEntryConfig (e : EntryId) (c : EntryConfig) (h : DelaysSame s t) :
    DelaysSame s (storeEntryConfig e c t) := by
  have stored := h.setEntry e ((t.entry e).configured c)
  unfold Machine.storeEntryConfig
  dsimp only
  split
  · split
    · exact stored.judgeHealth _
    · exact stored
    · exact stored
  · exact stored

end DelaysSame

/-! ## The recomputation -/

/-- The delay operation of a record is redirected, its target and its delay kept. -/
structure Program.SameAim (g h : Program) : Prop where
  kept : g.Kept h
  dtgt : h.delay.dtgt = g.delay.dtgt
  dcur : h.delay.dcur = g.delay.dcur

/-- With no operation in flight the record reads at its target (R126). -/
def DelayRec.Settled (d : DelayRec) : Prop := d.op = .none → d.dcur = d.dtgt

theorem DelayRec.distance_eq_zero {d : DelayRec} : d.distance = 0 ↔ d.dcur = d.dtgt := by
  unfold DelayRec.distance; omega

theorem Program.chooseOp_sameAim (g : Program) : g.SameAim g.chooseOp := by
  refine ⟨g.chooseOp_kept, ?_, ?_⟩ <;>
  · unfold Program.chooseOp
    split
    · rfl
    · split <;> rfl

theorem Program.chooseOp_settled (g : Program) : g.chooseOp.delay.Settled := by
  intro op
  rw [g.chooseOp_sameAim.dcur, g.chooseOp_sameAim.dtgt]
  unfold Program.chooseOp at op
  split at op
  · exact DelayRec.distance_eq_zero.1 ‹_›
  · split at op <;> cases op

theorem Program.beginCut_settled (g : Program) : g.beginCut.delay.Settled := fun op => nomatch op

theorem Program.retarget_sameAim (g : Program) : g.SameAim g.retarget := by
  unfold Program.retarget
  split
  · exact g.chooseOp_sameAim
  · split
    · exact ⟨.refl g, rfl, rfl⟩
    · exact ⟨g.beginCut_kept, rfl, rfl⟩
  all_goals exact ⟨.refl g, rfl, rfl⟩

theorem Program.afterClamp_sameAim (g : Program) : g.SameAim g.afterClamp := by
  unfold Program.afterClamp
  split
  · exact g.chooseOp_sameAim
  · exact g.chooseOp_sameAim
  all_goals exact ⟨.refl g, rfl, rfl⟩

theorem DelayRec.settled_of_op {d : DelayRec} {o : DelayOp} (op : d.op = o) (ho : o ≠ .none) : d.Settled :=
  fun none => absurd (op.symm.trans none) ho

theorem Program.retarget_settled (g : Program) : g.retarget.delay.Settled := by
  unfold Program.retarget
  split
  · exact g.chooseOp_settled
  · next op =>
    split
    · exact DelayRec.settled_of_op op (by decide)
    · exact g.beginCut_settled
  all_goals exact DelayRec.settled_of_op ‹_› (by decide)

theorem Program.afterClamp_settled (g : Program) : g.afterClamp.delay.Settled := by
  unfold Program.afterClamp
  split
  · exact g.chooseOp_settled
  · exact g.chooseOp_settled
  all_goals exact DelayRec.settled_of_op ‹_› (by decide)

/-- The record with its new target, and its delay under the ring bound (R125). -/
def Program.aimed (g : Program) (target bound : Nat) : Program :=
  { g with delay := { g.delay with dtgt := target, dcur := min g.delay.dcur bound } }

/-- The record a move of the target leaves (R122, R124, R125). -/
theorem moveTarget_prog_self (p : ProgId) (s : State) :
    (moveTarget p s).prog p =
      let g := s.prog p
      let g1 := g.aimed (delayTargetOf s g) (ringBound s g).toNat
      if !g.running then g1
      else if (ringBound s g).toNat < g.delay.dcur then g1.afterClamp
      else if delayTargetOf s g = g.delay.dtgt then g1
      else g1.retarget := by
  unfold moveTarget settleNotice
  dsimp only
  split
  · rw [State.setProg_prog_self]; rfl
  · split
    · split
      · rw [pushNotice_prog, State.setProg_prog_self]; rfl
      · rw [State.setProg_prog_self]; rfl
    · split <;> rw [State.setProg_prog_self] <;> rfl

theorem moveTarget_sameAim (p : ProgId) (s : State) :
    ((s.prog p).aimed (delayTargetOf s (s.prog p)) (ringBound s (s.prog p)).toNat).SameAim ((moveTarget p s).prog p) := by
  rw [moveTarget_prog_self]
  dsimp only
  split
  · exact ⟨.refl _, rfl, rfl⟩
  · split
    · exact Program.afterClamp_sameAim _
    · split
      · exact ⟨.refl _, rfl, rfl⟩
      · exact Program.retarget_sameAim _

theorem moveTarget_settled {p : ProgId} {s : State} (running : (s.prog p).running = true)
    (settled : (s.prog p).delay.Settled) : ((moveTarget p s).prog p).delay.Settled := by
  rw [moveTarget_prog_self]
  dsimp only
  rw [running, if_neg (by decide)]
  split
  · exact Program.afterClamp_settled _
  · split
    · next fits same =>
      intro op
      have at_ : (s.prog p).delay.dcur = (s.prog p).delay.dtgt := settled op
      unfold Program.aimed
      dsimp only
      omega
    · exact Program.retarget_settled _

theorem SameEquation.ofKept {s t : State} {p : ProgId} (kept : (s.prog p).Kept (t.prog p)) (feeds : t.feeds = s.feeds) :
    SameEquation s (s.prog p) t (t.prog p) := by
  obtain ⟨prog, delay⟩ := kept
  unfold DelayRec.Kept at delay
  refine ⟨latencies_congr ?_ fun x _ => by rw [State.feed_congr feeds], by rw [delay], by rw [delay]⟩
  rw [prog]
  rfl

/-- The latency conditions once judged (R119). -/
theorem judgeLatency_low (p : ProgId) (s : State) :
    (judgeLatency p s).progCond p .latencyUnder = decide (wantedDelay s (s.prog p) < 0) := by
  unfold judgeLatency
  dsimp only
  rw [setProgCond_progCond (by decide), if_neg (by simp), setProgCond_progCond (by decide), if_pos ⟨rfl, rfl⟩]

theorem judgeLatency_high (p : ProgId) (s : State) :
    (judgeLatency p s).progCond p .latencyOver = decide (ringBound s (s.prog p) < wantedDelay s (s.prog p)) := by
  unfold judgeLatency
  dsimp only
  rw [setProgCond_progCond (by decide), if_pos ⟨rfl, rfl⟩]

section
variable {p : ProgId} {s t : State}

/-- A record with the run, the ring and the equation of another, whose delay is again within the bound and settled. -/
theorem DelayAt.change (law : DelayAt s p) {x : Program} (active : x.active = (s.prog p).active)
    (equation : (s.prog p).active = true → SameEquation s (s.prog p) (s.setProg p x) x)
    (dtgt : x.delay.dtgt = (s.prog p).delay.dtgt) (write : x.delay.writePos = (s.prog p).delay.writePos)
    (flush : x.delay.flushCounter = (s.prog p).delay.flushCounter)
    (dcur : (s.prog p).active = true → (x.delay.dcur : Int) ≤ ringBound s (s.prog p))
    (settled : (s.prog p).active = true → x.state = .running → x.delay.Settled) : DelayAt (s.setProg p x) p := by
  unfold DelayAt
  rw [State.setProg_prog_self, active]
  refine ⟨fun on => ?_, law.2⟩
  obtain ⟨reserve, target, low, high, -, writeLt, flushLe, -⟩ := law.1 on
  have e := equation on
  rw [e.wanted, e.bound, e.target, e.reserve, e.ringSize, dtgt, write, flush]
  exact ⟨reserve, target, low, high, dcur on, writeLt, flushLe, fun running op =>
    (settled on running op).trans dtgt⟩

/-- The delay operation and the delay change. -/
theorem DelayAt.redirect (law : DelayAt s p) {x : Program} (kept : (s.prog p).Kept x)
    (dtgt : x.delay.dtgt = (s.prog p).delay.dtgt)
    (dcur : (s.prog p).active = true → (x.delay.dcur : Int) ≤ ringBound s (s.prog p))
    (settled : (s.prog p).active = true → x.state = .running → x.delay.Settled) : DelayAt (s.setProg p x) p := by
  have equation := SameEquation.ofKept (s := s) (t := s.setProg p x) (p := p)
    (by rw [State.setProg_prog_self]; exact kept) rfl
  rw [State.setProg_prog_self] at equation
  refine law.change kept.active (fun _ => equation) dtgt ?_ ?_ dcur settled
  all_goals
    have delay := kept.2
    unfold DelayRec.Kept at delay
    rw [delay]

/-- A recomputation establishes the law (R118, R119, R125). -/
theorem recomputeDelay_delayAt (h : Recomputable s p) : DelayAt (recomputeDelay p s) p := by
  unfold recomputeDelay
  cases active : (s.prog p).active with
  | false =>
    rw [if_neg (by decide)]
    exact ⟨fun on => absurd (active.symm.trans on) (by decide), fun _ => h.2 active⟩
  | true =>
    rw [if_pos rfl]
    obtain ⟨reserve, write, flush, settled⟩ := h.1 active
    have judged : (judgeLatency p s).prog p = s.prog p := judgeLatency_prog p p s
    have feeds : (judgeLatency p s).feeds = s.feeds := (ProgEffect.judgeLatency p s).feeds
    have same : SameEquation s (s.prog p) (judgeLatency p s) ((judgeLatency p s).prog p) :=
      .ofKept (by rw [judged]; exact .refl _) feeds
    have aim := moveTarget_sameAim p (judgeLatency p s)
    have running := moveTarget_settled (p := p) (s := judgeLatency p s)
    have low := (moveTarget_cond p (judgeLatency p s) (progEntry p .latencyUnder)).trans (judgeLatency_low p s)
    have high := (moveTarget_cond p (judgeLatency p s) (progEntry p .latencyOver)).trans (judgeLatency_high p s)
    have moved : (s.prog p).Kept ((moveTarget p (judgeLatency p s)).prog p) := by
      rw [judged] at aim
      exact .trans ⟨rfl, rfl⟩ aim.kept
    have e : SameEquation s (s.prog p) (moveTarget p (judgeLatency p s)) ((moveTarget p (judgeLatency p s)).prog p) :=
      .ofKept moved ((ProgEffect.moveTarget p _).feeds.trans feeds)
    rw [same.target, same.bound, judged] at aim
    rw [judged] at running
    have delay := moved.2
    unfold DelayRec.Kept at delay
    have bound := ringBound_nonneg reserve s
    refine ⟨fun _ => ?_, fun off => absurd (moved.active.symm.trans off) (by simp [active])⟩
    rw [e.wanted, e.bound, e.target, e.reserve, e.ringSize, aim.dcur, aim.dtgt]
    refine ⟨reserve, rfl, ?_, ?_, ?_, ?_, ?_, fun state op => ?_⟩
    · rw [State.progCond, low, decide_eq_true_eq]
    · rw [State.progCond, high, decide_eq_true_eq]
    · unfold Program.aimed
      dsimp only
      omega
    · rw [delay]; exact write
    · rw [delay]; exact flush
    · have state : (s.prog p).state = .running := by rw [moved.1] at state; exact state
      rw [← aim.dcur, ← aim.dtgt]
      exact running ((Program.running_iff _).2 state) (settled state) op

/-- A start of the delay establishes the law (R51, R55, R118). -/
theorem startDelay_prog_self (p : ProgId) (s : State) : (startDelay p s).prog p =
    { s.prog p with delay := { (s.prog p).delay.flush.noOp with
      dtgt := delayTargetOf s (s.prog p), dcur := delayTargetOf s (s.prog p) } } := by
  have judged : (judgeLatency p s).prog p = s.prog p := judgeLatency_prog p p s
  have same : SameEquation s (s.prog p) (judgeLatency p s) ((judgeLatency p s).prog p) :=
    .ofKept (by rw [judged]; exact .refl _) (ProgEffect.judgeLatency p s).feeds
  rw [judged] at same
  unfold startDelay
  dsimp only
  rw [State.setProg_prog_self, judged, same.target]

theorem startDelay_delayAt (active : (s.prog p).active = true) (reserve : 1 ≤ (s.prog p).delay.reserve) :
    DelayAt (startDelay p s) p := by
  have low : (startDelay p s).progCond p .latencyUnder = (judgeLatency p s).progCond p .latencyUnder :=
    State.setProg_cond ..
  have high : (startDelay p s).progCond p .latencyOver = (judgeLatency p s).progCond p .latencyOver :=
    State.setProg_cond ..
  rw [judgeLatency_low] at low
  rw [judgeLatency_high] at high
  have started := startDelay_prog_self p s
  have e : SameEquation s (s.prog p) (startDelay p s) ((startDelay p s).prog p) := by
    refine ⟨latencies_congr (by rw [started]; rfl) fun x _ => ?_, by rw [started]; rfl, by rw [started]; rfl⟩
    rw [State.feed_congr (ProgEffect.startDelay p s).feeds]
  have on : ((startDelay p s).prog p).active = true := by rw [started]; exact active
  have pages : 1 * Config.pageSamples ≤ (s.prog p).delay.ringSize := Nat.mul_le_mul_right _ reserve
  have size : Config.pageSamples = 1024 := rfl
  refine ⟨fun _ => ?_, fun off => absurd (on.symm.trans off) (by decide)⟩
  rw [low, high, e.wanted, e.bound, e.target, e.reserve, e.ringSize, started, decide_eq_true_eq, decide_eq_true_eq]
  refine ⟨reserve, rfl, .rfl, .rfl, delayTargetOf_le reserve s, ?_, Nat.zero_le _, fun _ _ => rfl⟩
  change 0 < _
  omega

end

end Sys2Proof.Machine
end

section
/-! PROOFS. Every effect of a command keeps the delay law (R116, R118, R119, R125, R126). -/
namespace Sys2Proof.Machine

/-! ## Feeds -/

/-- A program whose current set does not name the feed reads nothing of a change of its converter. -/
theorem classChange_delaySame {s u : State} {f : FeedId} {c : Converter} {p : ProgId}
    (told : DelaysSame (s.setFeed f { s.feed f with conv := c }) u) (off : setNames (u.prog p).currentSet f = false) :
    DelaySame p s u := by
  refine ⟨told.prog p, told.low p, told.high p, fun active x hx => (told.cls x.feed).trans ?_⟩
  have apart : x.feed ≠ f := by
    rintro rfl
    rw [(told.prog p).current active, State.setFeed_prog, setNames_of_mem hx] at off
    cases off
  rw [State.setFeed_feed_ne apart]

/-- A change of a feed's class reaches every program whose current set names it (R27, R118). -/
theorem DelayLaw.changeConverter {s : State} (law : DelayLaw s) (f : FeedId) (c : Converter) :
    DelayLaw (changeConverter f c s) := by
  unfold Machine.changeConverter
  dsimp only
  split
  · next same => exact (((DelaysSame.refl s).setFeed (x := { s.feed f with conv := c }) same.symm).setFeedCond f _ _).law law
  · unfold classEvent
    generalize hu : Machine.pushNotice .feedClass _ _ (Machine.setFeedCond f .srcUnlocked _ _) = u
    have told : DelaysSame (s.setFeed f { s.feed f with conv := c }) u := by
      subst hu
      exact ((DelaysSame.refl _).setFeedCond f _ _).pushNotice ..
    refine forEach_progs (P := DelayAt)
      (R := fun t p => Recomputable t p ∧ (setNames (t.prog p).currentSet f = false → DelayAt t p))
      (fun p t => ?_) (fun p t h => ?_) (fun effect hq h => ?_) (fun effect hq h => (effect.delaySame hq).delayAt h)
      fun p => ?_
    · unfold realign
      split
      · exact .recomputeDelay p t
      · exact .refl p t
    · obtain ⟨recomputable, apart⟩ := h
      unfold realign
      split
      · exact recomputeDelay_delayAt recomputable
      · next off =>
        cases active : (t.prog p).active with
        | true => exact apart (by simpa [active] using off)
        | false => exact ⟨fun on => absurd (active.symm.trans on) (by decide), fun _ => recomputable.2 active⟩
    · have same := effect.delaySame hq
      refine ⟨h.1.congr same.prog same.low same.high, fun off => same.delayAt (h.2 ?_)⟩
      rw [← effect.prog _ hq]
      exact off
    · exact ⟨((law.own p).recomputable).congr (told.prog p) (told.low p) (told.high p),
        fun off => (classChange_delaySame told off).delayAt (law p)⟩

theorem DelayLaw.feedSteps {s t : State} {f : FeedId} (law : DelayLaw s) (h : FeedSteps f s t) : DelayLaw t :=
  h.keeps law (fun u _ _ _ cls law => ((DelaysSame.refl u).setFeed cls).law law)
    (fun u k v law => ((DelaysSame.refl u).setFeedCond f k v).law law) (fun _ c law => law.changeConverter f c)
    fun u law => ((DelaysSame.refl u).judgeHealth f).law law

/-! ## The output sample -/

theorem DelayRec.countWritten_le {d : DelayRec} (h : d.flushCounter ≤ d.ringSize) :
    d.countWritten.flushCounter ≤ d.countWritten.ringSize := by
  change satAdd d.ringSize d.flushCounter 1 ≤ d.ringSize
  unfold satAdd
  omega

theorem DelayRec.advance_writePos {d : DelayRec} (h : d.writePos < d.ringSize) :
    d.advance.writePos < d.advance.ringSize := by
  change (if d.writePos + 1 < d.ringSize then d.writePos + 1 else 0) < d.ringSize
  split <;> omega

/-- What an output sample makes of a delay record (R116, R121). -/
def DelayRec.sampled (d : DelayRec) : DelayRec := d.countWritten.stepOn.advance

theorem DelayRec.sampled_eq (d : DelayRec) :
    d.sampled = { d with
      flushCounter := d.countWritten.flushCounter, writePos := d.advance.writePos
      progress := d.countWritten.stepOn.progress } := by
  unfold DelayRec.sampled
  rw [DelayRec.stepOn_eq]
  rfl

theorem DelayLaw.programSample {s : State} (law : DelayLaw s) (frames : List (Rat × Rat)) (p : ProgId) :
    DelayLaw (programSample frames p s) := by
  have sampled {x : Program} (m : Memory) (trims : List Nat) (active : (s.prog p).active = true)
      (hx : x = ((s.prog p).sample frames trims m).1) : DelayLaw (s.setProg p x) := by
    have delay : x.delay = (s.prog p).delay.sampled := by rw [hx]; rfl
    have state : x.state = (s.prog p).state := by rw [hx]; rfl
    have current : x.currentSet = (s.prog p).currentSet := by rw [hx]; rfl
    have on : x.active = true := by unfold Program.active at *; rw [state]; exact active
    rw [DelayRec.sampled_eq] at delay
    refine ((law.others p).prog (.setProg p s x)).law ?_
    have e : SameEquation s (s.prog p) (s.setProg p x) x :=
      ⟨latencies_congr current fun _ _ => rfl, by rw [delay], by rw [delay]⟩
    unfold DelayAt
    rw [State.setProg_prog_self, on]
    refine ⟨fun _ => ?_, fun off => absurd off (by decide)⟩
    obtain ⟨reserve, target, low, high, dcur, write, flush, settled⟩ := (law.own p).1 active
    rw [e.wanted, e.bound, e.target, e.ringSize, delay, state]
    exact ⟨reserve, target, low, high, dcur, DelayRec.advance_writePos write, DelayRec.countWritten_le flush, settled⟩
  unfold Machine.programSample
  dsimp only
  split
  · next active => exact ((DelaysSame.refl _).other rfl rfl rfl).law (sampled _ _ active rfl)
  · exact ((DelaysSame.refl _).other rfl rfl rfl).law law

theorem DelayLaw.outputSample {s : State} (law : DelayLaw s) : DelayLaw (outputSample s) := by
  have advanced := (DelaysSame.forEach (f := converterSample)
    (fun f t h => h.keepConverter (by rw [Converter.advance_kept])) allFeeds
    ((DelaysSame.refl s).passTicks (Config.ticksPerSample - s.tick))).law law
  unfold Machine.outputSample
  dsimp only
  generalize forEach allFeeds converterSample _ = u at advanced ⊢
  have sampled := forEach_induction (P := DelayLaw)
    (fun p t law => law.programSample (allFeeds.map fun f => (u.feed f).conv.delivered) p) allProgs u advanced
  generalize forEach allProgs _ u = v at sampled ⊢
  exact ((DelaysSame.refl v).other rfl rfl rfl).law sampled

/-! ## Runs -/

section
variable {s : State} {p : ProgId}

/-- A program that runs neither before nor after a change of its record. -/
theorem DelayLaw.idle (law : DelayLaw s) {x : Program} (before : (s.prog p).active = false) (after : x.active = false) :
    DelayLaw (s.setProg p x) := by
  refine ((law.others p).prog (.setProg p s x)).law ⟨fun on => ?_, fun _ => (law p).2 before⟩
  rw [State.setProg_prog_self, after] at on
  cases on

/-- The conditions of a measurement, the latency conditions among them, made false. -/
theorem DelayOthers.clear (others : DelayOthers p s) (ended : (s.prog p).active = false) :
    DelayLaw (clearMeasureConds p s) := by
  have state := ((RunsSame.clearMeasureConds p s).prog p).state
  have kept : DelayOthers p (clearMeasureConds p s) := by
    have marked := ((((DelaysSame.refl s).setProgCond (k := .silence) p false).setProgCond (k := .ceiling) p false).setProgCond
      (k := .overLevel) p false).others others
    exact (marked.prog (.setProgCond (by decide) p false _)).prog (.setProgCond (by decide) p false _)
  refine kept.law ⟨fun on => ?_, fun _ => ?_⟩
  · unfold Program.active at on ended
    rw [state, ended] at on
    cases on
  · unfold clearMeasureConds
    simp [setProgCond_progCond]

theorem endStopFade_delayLaw (others : DelayOthers p s) : DelayLaw (endStopFade p s) := by
  have marked := (((DelaysSame.refl _).setProgCond (k := .noSource) p false).setProgCond (k := .onBackup) p false).others
    (others.prog (.onProg p s Program.runEnded))
  have ended : ((setProgCond p .onBackup false
      (setProgCond p .noSource false (s.onProg p Program.runEnded))).prog p).active = false := by
    rw [setProgCond_prog (by decide), setProgCond_prog (by decide), State.onProg_eq, State.setProg_prog_self]
    rfl
  unfold endStopFade clearRunConds
  exact ((DelaysSame.refl _).pushNotice ..).law (marked.clear ended)

theorem Program.stopped_currentSet (g : Program) : g.stopped.currentSet = g.currentSet := by
  have rank : g.stopped.currentRank = g.currentRank := by
    unfold Program.currentRank Program.stopped
    dsimp only
    split
    · unfold Program.currentRank
      cases g.stack.getLast? <;> rfl
    · rfl
  unfold Program.currentSet
  rw [rank]
  rfl

theorem stopProgram_delayLaw (law : DelayLaw s) (running : (s.prog p).state = .running) : DelayLaw (stopProgram p s) := by
  have active : (s.prog p).active = true := by simp [Program.active, running]
  obtain ⟨-, -, -, -, dcur, -⟩ := (law.own p).1 active
  have own : DelayAt (s.setProg p (s.prog p).stopped) p :=
    (law.own p).change (by rw [active]; rfl)
      (fun _ => ⟨latencies_congr (Program.stopped_currentSet _) fun _ _ => rfl, rfl, rfl⟩) rfl rfl rfl (fun _ => dcur)
      fun _ state => by cases state
  have stopped : DelayLaw (membershipEvent p (s.onProg p Program.stopped)) :=
    ((DelaysSame.refl _).gain (.membershipEvent p _)).law (((law.others p).prog (.setProg p s _)).law own)
  unfold stopProgram
  dsimp only
  split
  · exact endStopFade_delayLaw (stopped.others p)
  · exact stopped

theorem startProgram_delayLaw (law : DelayLaw s) (reserve : 1 ≤ (s.prog p).delay.reserve) :
    DelayLaw (startProgram p s) := by
  have others := (law.others p).prog (.onProg p s (·.started (startRank s (s.prog p))))
  have judged := (((DelaysSame.refl _).judgeNoSource p).others others).prog (.startDelay p _)
  have run := (RunsSame.judgeNoSource p (s.onProg p (·.started (startRank s (s.prog p))))).prog p
  rw [State.onProg_eq, State.setProg_prog_self] at run
  have own := startDelay_delayAt (p := p) (s := judgeNoSource p (s.onProg p (·.started (startRank s (s.prog p)))))
    (by unfold Program.active; rw [State.onProg_eq, run.state]; rfl) (by rw [State.onProg_eq, run.reserve]; exact reserve)
  rw [startProgram_eq]
  unfold startedState sourceChanged snapGain
  generalize startDelay p _ = u at judged own ⊢
  have silent := (DelaysSame.refl u).setProgCond (k := .silence) p false
  exact ((((silent.gain (.membershipEvent p _)).loud).pushNotice ..).judgeOnBackup p).law (judged.law own)

theorem restartProgram_delayLaw (law : DelayLaw s) (running : (s.prog p).running = true) :
    DelayLaw (restartProgram p s) := by
  have active : (s.prog p).active = true := (Program.active_iff _).2 (.inl ((Program.running_iff _).1 running))
  have same := ((DelaysSame.refl s).onProg (g := Program.rerun) (fun _ => .of rfl rfl rfl rfl) p).setProgCond
    (k := .silence) p false
  obtain ⟨reserve, -⟩ := (law.own p).1 active
  have own := startDelay_delayAt (p := p) ((same.prog p).active.trans active)
    (by rw [(same.prog p).delay]; exact reserve)
  exact ((DelaysSame.refl _).gain (.membershipEvent p _)).law (((same.others (law.others p)).prog (.startDelay p _)).law own)

theorem defineProgram_delayLaw (law : DelayLaw s) (c : Nat) (ws : List WeightCode) (idle : (s.prog p).idle = true) :
    DelayLaw (defineProgram p c ws s) := by
  have before : (s.prog p).active = false := by
    unfold Program.idle at idle
    unfold Program.active
    cases e : (s.prog p).state <;> simp [e] at idle ⊢
  have returned : DelayLaw (returnPages p s) :=
    ((DelaysSame.refl _).other rfl rfl rfl).law (law.idle (x := { s.prog p with
      delay := { (s.prog p).delay.flush with reserve := 0, chain := [] } }) before before)
  refine DelayOthers.clear (((returned.others p)).prog (.onProg p _ _)) ?_
  rw [State.onProg_eq, State.setProg_prog_self]
  rfl

theorem clearProgram_delayLaw (law : DelayLaw s) (state : (s.prog p).state = .defined) : DelayLaw (clearProgram p s) := by
  have before : (s.prog p).active = false := by simp [Program.active, state]
  have returned : DelayLaw (returnPages p s) :=
    ((DelaysSame.refl _).other rfl rfl rfl).law (law.idle (x := { s.prog p with
      delay := { (s.prog p).delay.flush with reserve := 0, chain := [] } }) before before)
  have kept := (((returned.others p).prog (.onProg p _ fun g =>
    { g with state := .undefined, slots := 0, weights := [], sets := .replicate 4 none })).prog
      (.setProgCond (k := .latencyUnder) (by decide) p false _)).prog
        (.setProgCond (k := .latencyOver) (by decide) p false _)
  refine kept.law ⟨fun on => ?_, fun _ => by simp [setProgCond_progCond]⟩
  rw [setProgCond_prog (by decide), setProgCond_prog (by decide), State.onProg_eq, State.setProg_prog_self] at on
  cases on

theorem rebuildChain_delayLaw (law : DelayLaw s) (P : Nat) (state : (s.prog p).state = .defined) :
    DelayLaw (rebuildChain p P s) := by
  have before : (s.prog p).active = false := by simp [Program.active, state]
  exact ((DelaysSame.refl _).other rfl rfl rfl).law (law.idle (x := { s.prog p with
    delay := { (s.prog p).delay.flush with
      reserve := P, chain := (s.freePages ++ (s.prog p).delay.chain).take ((s.prog p).slots * P) } }) before before)

theorem storeTarget_delayLaw (law : DelayLaw s) (ltgt slew : Nat) (n : StepInterval) :
    DelayLaw (storeTarget p ltgt slew n s) := by
  have others := (law.others p).prog (.onProg p s fun g =>
    { g with delay := { g.delay with ltgt := ltgt, slewLimit := slew, interval := n } })
  refine (others.prog (.recomputeDelay p _)).law (recomputeDelay_delayAt ?_)
  unfold Recomputable
  rw [State.onProg_eq, State.setProg_prog_self]
  exact (law.own p).recomputable

theorem changeSet_delayLaw (law : DelayLaw s) (l : List Rank) (c : SwapCause) : DelayLaw (changeSet p l c s) := by
  have reset (g : Program) : g.swapReset.state = g.state ∧ g.swapReset.delay = g.delay := by
    unfold Program.swapReset
    split <;> exact ⟨rfl, rfl⟩
  unfold changeSet sourceChanged
  dsimp only
  generalize hu : s.onProg p _ = u
  have others : DelayOthers p u := by
    subst hu
    exact (law.others p).prog (.onProg p s _)
  have own : Recomputable u p := by
    subst hu
    unfold Recomputable Program.active
    rw [State.onProg_eq, State.setProg_prog_self, (reset _).1, (reset _).2]
    exact (law.own p).recomputable
  have moved := (others.prog (.recomputeDelay p u)).law (recomputeDelay_delayAt own)
  exact ((((DelaysSame.refl _).judgeOnBackup p).judgeNoSource p).pushNotice ..).law moved

theorem failoverSwitch_delayLaw (law : DelayLaw s) (c : SwapCause) : DelayLaw (failoverSwitch p c s) := by
  have kept := ((DelaysSame.refl s).keepSet p c).law law
  unfold failoverSwitch
  dsimp only
  split
  · exact kept
  · split
    · exact kept
    · exact changeSet_delayLaw law _ c

theorem swapSwitch_delayLaw (law : DelayLaw s) : DelayLaw (swapSwitch p s) := by
  unfold swapSwitch
  split
  · unfold returnSwitch
    dsimp only
    split
    · exact changeSet_delayLaw law _ _
    · exact failoverSwitch_delayLaw law _
  · split
    · next r _ =>
      have marked := ((DelaysSame.refl s).setMark p r false).law law
      unfold selectSwitch
      dsimp only
      split
      · exact changeSet_delayLaw marked _ _
      · exact failoverSwitch_delayLaw marked _
    · exact failoverSwitch_delayLaw law _
  all_goals exact failoverSwitch_delayLaw law _

/-! ## Delay operations -/

theorem DelayRec.beginStep_settled (d : DelayRec) : d.beginStep.Settled := fun op => nomatch op

theorem slewComplete_delayLaw (law : DelayLaw s) : DelayLaw (slewComplete p s) := by
  have within : (s.prog p).active = true →
      ((s.prog p).delay.stepped (ringBound s (s.prog p)) : Int) ≤ ringBound s (s.prog p) := fun active => by
    obtain ⟨reserve, -, -, -, dcur, -⟩ := (law.own p).1 active
    have bound := ringBound_nonneg reserve s
    unfold DelayRec.stepped
    split <;> omega
  rw [slewComplete_eq]
  split
  · next there =>
    refine ((DelaysSame.refl _).pushNotice ..).law (((law.others p).prog (.setProg p s _)).law ?_)
    exact (law.own p).redirect ⟨rfl, rfl⟩ rfl within fun _ _ _ => DelayRec.distance_eq_zero.1 there
  · refine ((law.others p).prog (.setProg p s _)).law ?_
    exact (law.own p).redirect ⟨rfl, rfl⟩ rfl within fun _ _ => DelayRec.beginStep_settled _

theorem cutJump_delayLaw (law : DelayLaw s) : DelayLaw (cutJump p s) := by
  refine ((law.others p).prog (.setProg p s _)).law ((law.own p).redirect ⟨rfl, rfl⟩ rfl (fun active => ?_) fun _ _ op => ?_)
  · obtain ⟨reserve, target, -⟩ := (law.own p).1 active
    change ((s.prog p).delay.dtgt : Int) ≤ _
    rw [target]
    exact delayTargetOf_le reserve s
  · cases op

theorem cutInEnd_delayLaw (law : DelayLaw s) : DelayLaw (cutInEnd p s) := by
  have dcur : (s.prog p).active = true → ((s.prog p).delay.dcur : Int) ≤ ringBound s (s.prog p) := fun active =>
    ((law.own p).1 active).2.2.2.2.1
  have ended : (s.prog p).Kept { s.prog p with delay := (s.prog p).delay.noOp } := ⟨rfl, rfl⟩
  unfold cutInEnd
  dsimp only
  split
  · next there =>
    refine ((DelaysSame.refl _).pushNotice ..).law (((law.others p).prog (.setProg p s _)).law ?_)
    exact (law.own p).redirect ended rfl dcur fun _ _ _ => DelayRec.distance_eq_zero.1 there
  · have aim := Program.chooseOp_sameAim { s.prog p with delay := (s.prog p).delay.noOp }
    refine ((law.others p).prog (.setProg p s _)).law ?_
    refine (law.own p).redirect (ended.trans aim.kept) aim.dtgt (fun active => ?_) fun _ _ => Program.chooseOp_settled _
    rw [aim.dcur]
    exact dcur active

/-! ## Sets -/

/-- A rank off the stack of a program that runs or stops is stored (R48). -/
theorem storeSet_same {r : Rank} (l : List SlotSource)
    (taken : setTaken (s.prog p) r (rankSet (s.prog p).slots l) = true) :
    DelaysSame s (storeSet p r (rankSet (s.prog p).slots l) s) := by
  rw [storeSet_eq]
  refine ((DelaysSame.refl s).setProg (x := (s.prog p).withSet r (rankSet (s.prog p).slots l))
    ⟨rfl, fun active => ?_, rfl⟩).eligibilityEvent p
  have off := setTaken_notMem active taken
  unfold Program.currentSet
  change (match (s.prog p).currentRank with | none => [] | some q => _) = _
  cases top : (s.prog p).currentRank with
  | none => rfl
  | some q =>
    have ne : q ≠ r := fun e => off (e ▸ List.mem_of_getLast? top)
    dsimp only
    rw [Program.withSet_setAt, if_neg ne]

theorem selectCurrent_same {r : Rank} (current : (s.prog p).currentRank = some r) :
    DelaysSame s (selectCurrent p r s) := by
  refine DelaysSame.setMark p r false ((DelaysSame.refl s).setProg ⟨rfl, fun _ => ?_, rfl⟩)
  unfold Program.currentSet
  rw [current]
  rfl

end

/-! ## Every effect of a command -/

/-- A move of the monitor and its condition touches no program (R39). -/
theorem DelayLaw.setHouseRef {s : State} (law : DelayLaw s) (m : Monitor) (v : Bool) :
    DelayLaw (Machine.setCond houseRefEntry v { s with monitor := m }) := by
  have moved : DelayLaw { s with monitor := m } := law
  exact DelaysSame.law ((DelaysSame.refl _).setCond (fun p => houseRef_ne p _) (fun p => houseRef_ne p _) v) moved

theorem Work.delayLaw {s t : State} (h : Work s t) (law : DelayLaw s) : DelayLaw t := by
  have here := DelaysSame.refl s
  cases h with
  | none => exact law
  | storeFeedConfig f en ex par val =>
    have configured : DelayLaw (configurePort f en ex par val s) := (here.setPort f _ _).law law
    exact configured.feedSteps (storeFeedConfig_steps f en ex par val s)
  | clearFeedCounters f => exact (here.setFeed (x := { s.feed f with
      port := { (s.feed f).port with chA := (s.feed f).port.chA.uncounted, chB := (s.feed f).port.chB.uncounted }
      conv := { (s.feed f).conv with slipCount := 0 } }) rfl).law law
  | defineProgram c ws idle => exact defineProgram_delayLaw law c ws idle
  | clearProgram state => exact clearProgram_delayLaw law state
  | storeSet l taken => exact (storeSet_same l taken).law law
  | startProgram _ _ reserve => exact startProgram_delayLaw law reserve
  | stopProgram state => exact stopProgram_delayLaw law state
  | restartProgram running => exact restartProgram_delayLaw law running
  | selectCurrent _ _ current => exact (selectCurrent_same current).law law
  | @beginSelect p r _ _ =>
    exact (here.onProg (g := (·.startFadeOut .select (some r))) (fun _ => .of rfl rfl rfl rfl) p).law law
  | @storeFailover p _ auto hold reset =>
    refine (here.onProg (fun g => ?_) p).law law
    unfold Program.storeFailover
    dsimp only
    split <;> exact .of rfl rfl rfl rfl
  | storeLoud mode body link _ => exact here.loud.law law
  | restartMeasurement p => exact (here.loud.setProgCond (k := .silence) p false).law law
  | rebuildChain P state _ => exact rebuildChain_delayLaw law P state
  | storeTarget p ltgt slew n => exact storeTarget_delayLaw law ltgt slew n
  | storeEntryConfig c _ _ _ => exact (here.storeEntryConfig _ c).law law
  | acknowledge es => exact (DelaysSame.forEach (fun e t h => h.setEntry e _) es here).law law
  | frameEdge f first => exact law.feedSteps (FeedSteps.refl.frameEdge first)
  | subframeReceived f w => exact law.feedSteps (FeedSteps.refl.subframeReceived w)
  | declareLoss first _ => exact law.feedSteps (FeedSteps.refl.declareLoss first)
  | outputSample => exact law.outputSample
  | passTicks n => exact (here.passTicks n).law law
  | endStartFade p =>
    exact (here.onProg (g := fun g => { g with outDir := .none }) (fun _ => .of rfl rfl rfl rfl) p).law law
  | @endStopFade p _ _ => exact endStopFade_delayLaw (law.others p)
  | swapSwitch _ => exact swapSwitch_delayLaw law
  | endSwap p =>
    refine (here.onProg (fun g => ?_) p).law law
    unfold Program.endSwap
    dsimp only
    split <;> exact .of rfl rfl rfl rfl
  | blockClose o => exact (here.blockClose o).law law
  | @silenceTimeout p _ _ => exact (here.setProgCond (k := .silence) p true).law law
  | beginReturn p =>
    unfold Machine.beginReturn
    split
    · exact (here.onProg (g := Program.startReturn) (fun _ => .of rfl rfl rfl rfl) p).law law
    · exact law
  | slewComplete _ => exact slewComplete_delayLaw law
  | cutJump p => exact cutJump_delayLaw law
  | cutInEnd p => exact cutInEnd_delayLaw law
  | expireRaise e => exact (here.alarm (.expireRaise e s)).law law
  | expireClear e => exact (here.alarm (.expireClear e s)).law law
  | refEdge => exact law.setHouseRef _ false
  | loseRef => exact law.setHouseRef _ true
  | unitRestart =>
    intro p
    have inactive : ((Machine.unitRestart s).prog p).active = false := by
      rw [unitRestart_prog]; exact Program.unitRestarted_inactive _
    exact ⟨fun on => absurd (inactive.symm.trans on) (by decide), fun _ => ⟨unitRestart_cond s _, unitRestart_cond s _⟩⟩
  | leaveReset u b =>
    intro p
    have inactive : ((Machine.leaveReset u b s).prog p).active = false := by rw [leaveReset_prog]; rfl
    exact ⟨fun on => absurd (inactive.symm.trans on) (by decide),
      fun _ => ⟨leaveReset_cond u b s _, leaveReset_cond u b s _⟩⟩

/-- Settles O57: whatever moves a latency of the current set, the target's settings or the run recomputes the delay, the
events of an operation keep Dcur under the ring bound, and nothing else touches what the equation reads. -/
theorem delayLawKept : Obligations.DelayLawKept := by
  refine ⟨fun s t _ law h => ?_, fun s p law active => ?_, fun s p law running none low high => ?_⟩
  · exact step_keeps (fun s _ same => ((DelaysSame.refl s).other same.feeds same.progs same.conds).law)
      (fun _ _ w => w.delayLaw) law h
  · obtain ⟨reserve, target, -, -, dcur, -⟩ := (law.own p).1 active
    have within := delayTargetOf_le reserve s
    rw [← target] at within
    unfold ringBound DelayRec.ringSize at within dcur
    have size : Config.pageSamples = 1024 := rfl
    rw [size] at within dcur
    omega
  · obtain ⟨reserve, target, under, within, -, -, -, settled⟩ :=
      (law.own p).1 ((Program.active_iff _).2 (.inl running))
    have least : ¬wantedDelay s (s.prog p) < 0 := fun h => by simp [under.2 h] at low
    have most : ¬ringBound s (s.prog p) < wantedDelay s (s.prog p) := fun h => by simp [within.2 h] at high
    have reached := settled running none
    unfold delayTargetOf clampInt at target
    have wanted : wantedDelay s (s.prog p) = (s.prog p).delay.ltgt - lsrcMax s (s.prog p) - 48 := rfl
    omega

end Sys2Proof.Machine
end

section
/-! PROOFS. The queue of commands, the resets, the Notice Queue, and what every command leaves alone. -/
namespace Sys2Proof.Machine

/-! ## The queue of commands -/

/-- The part's own work is one of the events whose instant has come. -/
theorem pickDue_mem {s : State} (due : dueEvents s ≠ []) :
    ∃ c ∈ dueEvents s, pickDue s = some (c, { s with freeCount := s.freeCount + 1 }) := by
  unfold pickDue
  split
  · next h => exact absurd h due
  · next c l h =>
    have chosen : Config.choice s.freeCount % (c :: l).length < (c :: l).length := Nat.mod_lt _ (by simp)
    refine ⟨_, ?_, rfl⟩
    rw [h, List.getD_eq_getElem _ _ chosen]
    exact List.getElem_mem chosen

theorem idle_inReset {s : State} (h : s.inReset = true) : idle s = .next s := by
  unfold idle; rw [if_pos h]

theorem idle_tick {s : State} (h : s.inReset = false) (none : dueEvents s = []) : idle s = .next (passTicks 1 s) := by
  unfold idle pickDue
  rw [h, none]
  rfl

theorem idle_event {s : State} (h : s.inReset = false) (due : dueEvents s ≠ []) :
    ∃ c ∈ dueEvents s, idle s = exec c { s with freeCount := s.freeCount + 1 } := by
  obtain ⟨c, mem, picked⟩ := pickDue_mem due
  refine ⟨c, mem, ?_⟩
  unfold idle
  rw [if_neg (by simp [h]), picked]

/-- Settles O1, from what the part's own work does in each of its three cases. -/
theorem stepTakesFrontCommand : Obligations.StepTakesFrontCommand := by
  refine ⟨fun s c rest front => by unfold step; rw [front], fun s empty => ?_⟩
  have own : step s = idle s := by unfold step; rw [empty]
  rw [own]
  exact ⟨idle_inReset, idle_tick, idle_event⟩

/-! ## The resets (R157, R158) -/

theorem exec_inReset {c : Instr} {s : State} (h : s.inReset = true) (start : c ≠ .powerOnResetStart)
    (ends : ∀ u b, c ≠ .powerOnReset u b) : exec c s = .next s := by
  obtain ⟨f, run⟩ | ⟨t, run⟩ := exec_ends c s
  · exact run.trans (onUnit_inReset h)
  · cases c with
    | powerOnResetStart => exact absurd rfl start
    | powerOnReset u b => exact absurd rfl (ends u b)
    | badKindFrame k m =>
      exact onUnit_inReset (f := fun t => if (readKind k).isSome then t else deliverBadKind k m t) h
    | _ => exact onUnit_inReset h

/-- Settles O3. -/
theorem resetHoldsPart : Obligations.ResetHoldsPart := by
  refine ⟨fun s => ?_, fun c s h start ends => exec_inReset h start ends⟩
  refine ⟨judgePins (enterReset s), rfl, rfl, rfl, rfl, rfl, rfl, rfl, fun p k => ?_, rfl, rfl, rfl, rfl, rfl, rfl, rfl,
    rfl, rfl⟩
  simp [judgePins, enterReset, zeroFrame]

/-- Settles O4. -/
theorem powerOnResetValues : Obligations.PowerOnResetValues := by
  intro s u b
  have dark := judgePins_dark (s := leaveReset u b s) fun e => by rw [leaveReset_entry]
  have pages : (leaveReset u b s).freePages = List.range 4096 := by simp only [leaveReset, State.powerOn, Config.pageCount]
  refine ⟨judgePins (leaveReset u b s), rfl, rfl, rfl, rfl, rfl, rfl, rfl, rfl, rfl, dark.1, dark.2, rfl, rfl, rfl, rfl,
    (judgePins_freePages _).trans pages, rfl, rfl, fun f => ?feed, fun p => ?prog, fun e => ?entry⟩
  case feed =>
    have clean : (judgePins (leaveReset u b s)).feed f = {} :=
      (judgePins_feed ..).trans (leaveReset_feed ..)
    rw [clean]
    exact ⟨rfl, rfl, rfl, rfl, rfl, rfl, rfl⟩
  case prog =>
    have clean : (judgePins (leaveReset u b s)).prog p = {} :=
      (judgePins_prog ..).trans (leaveReset_prog ..)
    rw [clean]
    exact ⟨rfl, rfl, rfl, rfl, rfl, rfl, rfl, rfl, rfl, rfl, rfl, rfl, rfl, rfl⟩
  case entry => exact 
    ⟨(judgePins_entry ..).trans (leaveReset_entry ..), (judgePins_cond ..).trans (leaveReset_cond ..)⟩

theorem exec_unitRestart {s : State} (h : s.inReset = false) : exec .unitRestart s = .next (judgePins (unitRestart s)) :=
  onUnit_running h

/-- Settles O5. -/
theorem unitRestartValues : Obligations.UnitRestartValues := by
  intro s h
  have dark := judgePins_dark (s := unitRestart s) fun e => by rw [unitRestart_entry]; rfl
  have attn : (judgePins (unitRestart s)).attn = true := by simp [judgePins, unitRestart, pushNotice, h, Config.queueLimit]
  refine ⟨_, exec_unitRestart h, rfl, rfl, attn, rfl, rfl, rfl, rfl, rfl, rfl, dark.1, dark.2, rfl, rfl, rfl, rfl, rfl,
    rfl, rfl, fun f => ?feed, fun p => ?prog, fun e => ?entry⟩
  case feed =>
    have clean : (judgePins (unitRestart s)).feed f = (s.feed f).restarted := unitRestart_feed s f
    rw [clean]
    exact ⟨rfl, rfl, rfl, rfl, rfl, rfl⟩
  case prog =>
    have clean : (judgePins (unitRestart s)).prog p = (s.prog p).unitRestarted := unitRestart_prog s p
    rw [clean]
    exact ⟨rfl, rfl, rfl, rfl, rfl, rfl, rfl, rfl, rfl, rfl, rfl, rfl, rfl, rfl, rfl, rfl⟩
  case entry => exact ⟨unitRestart_entry s e, unitRestart_cond s e⟩

/-! ## The Notice Queue (R153) -/

/-- ATTN reads no timer. -/
theorem AttnLaw.timers {s : State} (law : AttnLaw s) (m : Monitor) (r : Receiver) (n : Nat) :
    AttnLaw { s with monitor := m, rx := r, tick := n } := law

theorem passTicks_attnLaw {s : State} (law : AttnLaw s) (n : Nat) : AttnLaw (passTicks n s) := by
  have port (f : FeedId) (t : State) (kept : AttnLaw t) : AttnLaw (t.onPort f (Port.pass n)) := kept
  exact (forEach_induction port allFeeds s law).timers _ _ _

theorem exec_attnLaw {c : Instr} {s t : State} (law : AttnLaw s) (h : exec c s = .next t) : AttnLaw t := by
  obtain ⟨-, rfl⟩ | ⟨u, rfl⟩ := exec_next h
  · exact law
  · exact (judgePins_pinLaw u).1

theorem step_attnLaw {s t : State} (law : AttnLaw s) (h : step s = .next t) : AttnLaw t := by
  unfold step at h
  split at h
  · next rest _ => exact exec_attnLaw (s := { s with pending := rest }) law h
  · obtain rfl | ⟨c, h⟩ | rfl := idle_next h
    · exact law
    · exact exec_attnLaw (s := { s with freeCount := s.freeCount + 1 }) law h
    · exact passTicks_attnLaw law 1

theorem getLsbD_one_shiftLeft {n i : Nat} (hi : i < 32) (hn : n < 32) :
    (1#32 <<< n).getLsbD i = decide (i = n) := by
  rw [BitVec.getLsbD_shiftLeft, BitVec.getLsbD_one]
  by_cases h : i = n
  · simp [h, hn]
  · simp [h, hi]
    omega

theorem Source.code_lt (src : Source) : src.code < 32 := by
  cases src <;> simp only [Source.code] <;> omega

/-- Settles O52, from the queue's law of every effect and the pins judged at the end of every command. -/
theorem noticeQueueLawKept : Obligations.NoticeQueueLawKept := by
  refine ⟨fun s t queue attn h => ⟨step_queueLaw queue h, step_attnLaw attn h⟩,
    fun k src detail s => ⟨fun room => ?joins, fun full => ?lost⟩⟩
  case joins =>
    refine ⟨padTo 6 0 detail, by simp [padTo], fun i hi six => ?_, pushNotice_joins room k src detail⟩
    rw [padTo, List.getElem?_take_of_lt six, List.getElem?_append_left hi]
  case lost =>
    refine ⟨_, pushNotice_lost (Nat.not_lt.2 full) k src detail, fun i hi => ?_⟩
    rw [BitVec.getLsbD_or, getLsbD_one_shiftLeft hi src.code_lt]

/-! ## The laws right after reset -/

theorem reset_eq : State.reset = leaveReset 0 0 State.reset := by
  simp only [State.reset, leaveReset, State.powerOn]

theorem reset_prog (p : ProgId) : State.reset.prog p = {} := by rw [reset_eq, leaveReset_prog]

theorem reset_feed (f : FeedId) : State.reset.feed f = {} := by rw [reset_eq, leaveReset_feed]

theorem reset_cond (e : EntryId) : State.reset.cond e = false := by rw [reset_eq, leaveReset_cond]

theorem reset_entry (e : EntryId) : State.reset.entry e = { config := defaultConfig e } := by
  rw [reset_eq, leaveReset_entry]

theorem reset_inactive (p : ProgId) : (State.reset.prog p).active = false := by rw [reset_prog]; rfl

theorem reset_dark (sev : Severity) : LampLaw State.reset sev false := by
  refine ⟨fun lit => absurd lit (by decide), fun ⟨_, e, _, latched, _⟩ => ?_⟩
  rw [reset_entry] at latched
  exact latched

theorem reset_feedLaw : FeedLaw State.reset := by
  refine (feedLaw_iff _).2 fun f => ?_
  have conds : State.reset.feedCond f = fun _ => false := funext fun k => reset_cond _
  unfold line
  rw [reset_feed, conds]
  exact ⟨rfl, rfl, fun _ => ⟨rfl, fun _ => rfl⟩, fun on => (by cases on), Converter.cleared_bounded (c := {}) _ (.inl rfl)⟩

theorem reset_entryLaw : EntryLaw State.reset := by
  refine (entryLaw_iff _).2 fun e => ?_
  obtain ⟨up, down, legal⟩ := defaultConfig_bounds e
  rw [reset_entry, reset_cond]
  exact ⟨by simp, fun _ => rfl, Nat.zero_le _, up, down, Nat.zero_le _, fun _ => rfl, legal⟩

theorem reset_gainLaw : GainLaw State.reset := fun p => by
  rw [reset_prog]
  exact ⟨LoudSettings.default_inRange, LoudSettings.default_inRange, by decide, by decide, fun _ => rfl⟩

theorem reset_silenceLaw : SilenceLaw State.reset := fun p => by
  rw [State.progCond, reset_cond, reset_inactive]
  simp

theorem reset_delayLaw : DelayLaw State.reset := fun p =>
  ⟨fun on => absurd ((reset_inactive p).symm.trans on) (by decide), fun _ => ⟨reset_cond _, reset_cond _⟩⟩

theorem reset_healthLaw : HealthLaw State.reset := fun f => by simp [reset_feed]

theorem reset_sourceLaw : SourceLaw State.reset := fun p => by
  rw [State.progCond, State.progCond, reset_cond, reset_cond, reset_inactive]
  simp

/-- Settles O51, law by law: no feed is enabled, no program runs, and no entry has left CLEAR. -/
theorem resetIsSound : Obligations.ResetIsSound where
  queue := Nat.zero_le _
  pins := ⟨by simp [AttnLaw, State.reset, State.powerOn], reset_dark _, reset_dark _⟩
  gain := reset_gainLaw
  link := noRuns_linkLaw reset_inactive
  silence := reset_silenceLaw
  pool := by rw [reset_eq]; exact leaveReset_poolLaw ..
  stack := by rw [reset_eq]; exact leaveReset_stackLaw _ _ _
  delay := reset_delayLaw
  store := rfl
  feed := reset_feedLaw
  health := reset_healthLaw
  source := reset_sourceLaw
  entry := reset_entryLaw

end Sys2Proof.Machine
end

section
/-! PROOFS. What every command leaves alone: the events leave all that `Quiet` names but for their own, and a message
leaves all that `FrameKept` names. -/
namespace Sys2Proof.Machine

/-! ## Work that leaves the line, the clock and the pool -/

theorem ProgEffect.clearMeasureConds (p : ProgId) (s : State) : ProgEffect p s (clearMeasureConds p s) := by
  have cleared {k : ProgCond} (h : k ≠ .silence) (t : State) : ProgEffect p t (Machine.setProgCond p k false t) :=
    .setProgCond h p false t
  exact (ProgEffect.setSilence_false p s).trans ((cleared (by decide) _).trans ((cleared (by decide) _).trans
    ((cleared (by decide) _).trans (cleared (by decide) _))))

theorem ProgEffect.clearRunConds (p : ProgId) (s : State) : ProgEffect p s (clearRunConds p s) :=
  ((ProgEffect.setProgCond (by decide) p false s).trans (.setProgCond (by decide) p false _)).trans
    (.clearMeasureConds p _)

theorem ProgEffect.endStopFade (p : ProgId) (s : State) : ProgEffect p s (endStopFade p s) :=
  ((ProgEffect.onProg p s Program.runEnded).trans (.clearRunConds p _)).trans (.pushNotice ..)

theorem ProgEffect.beginReturn (p : ProgId) (s : State) : ProgEffect p s (beginReturn p s) := by
  unfold Machine.beginReturn
  split
  · exact .onProg p s _
  · exact .refl p s

theorem GainEffect.quiet {s t : State} (h : GainEffect s t) : Quiet s t := by
  rw [h.rest]
  constructor <;> rfl

namespace Quiet

variable {s t u : State}

theorem onlyIf {b : Bool} (h : Quiet s t) : Quiet s (if b = true then t else s) := by
  split
  · exact h
  · exact .refl s

theorem countTimer (e : EntryId) (s : State) : Quiet s (countTimer e s) := by
  unfold Machine.countTimer
  dsimp only
  split
  · exact .setEntry ..
  · exact .setEntry ..
  · exact .refl s
  · exact .refl s

theorem closeLevels (formed : ProgId → Bool) (s : State) : Quiet s (closeLevels formed s) := by
  have applied := forEach_relation (R := Quiet) (f := formAtClose (appliedGainOf s)) .refl .trans
    (fun p t => .setProg t p _) allProgs s
  exact applied.trans (forEach_relation .refl .trans (fun p t => (ProgEffect.judgeLevels _ p t).quiet) allProgs _)

theorem closeWork (o : CloseOrder) (formed : ProgId → Bool) (w : CloseWork) (s : State) :
    Quiet s (closeWork o formed w s) := by
  cases w with
  | slip f => exact (FeedEffect.setFeedCond f .srcSlip false s).quiet
  | measure p => exact (ProgEffect.closeController p s).quiet
  | levels => exact closeLevels formed s
  | alarm e =>
    unfold Machine.closeWork closeAlarm
    dsimp only
    split
    · exact countTimer e s
    · exact (countTimer e s).trans ((AlarmEffect.expireRaise e _).quiet.trans (AlarmEffect.expireClear e _).quiet)
  | returns p => exact (ProgEffect.closeReturn _ p s).quiet

theorem converterSample (f : FeedId) (s : State) : Quiet s (converterSample f s) := (FeedEffect.keepConverter f _ s).quiet

end Quiet

theorem FeedSteps.quiet {f : FeedId} {s t : State} (h : FeedSteps f s t) : Quiet s t :=
  h.keeps (.refl s) (fun u x _ _ _ q => q.trans (.setFeed u f x))
    (fun u k v q => q.trans (FeedEffect.setFeedCond f k v u).quiet)
    (fun u c q => q.trans (FeedEffect.changeConverter f c u).quiet)
    fun u q => q.trans (AlarmEffect.judgeHealth f u).quiet

/-! ## Messages -/

namespace FrameKept

variable {s t u : State}

theorem trans {a b c : State} (h : FrameKept a b) (g : FrameKept b c) : FrameKept a c :=
  ⟨g.pending.trans h.pending, g.freeCount.trans h.freeCount, g.unitAddr.trans h.unitAddr, g.baud.trans h.baud,
    g.inReset.trans h.inReset, g.resetCause.trans h.resetCause, g.blockCounter.trans h.blockCounter,
    g.tick.trans h.tick, g.sampleInBlock.trans h.sampleInBlock, g.monitor.trans h.monitor, g.ports.trans h.ports,
    g.store.trans h.store⟩

theorem ofQuiet (h : Quiet s t) : FrameKept s t :=
  ⟨h.pending, h.freeCount, h.unitAddr, h.baud, h.inReset, h.resetCause, h.blockCounter, h.tick, h.sampleInBlock,
    h.monitor, h.ports, h.store⟩

theorem quiet (h : FrameKept s t) (q : Quiet t u) : FrameKept s u := h.trans (.ofQuiet q)

theorem withRx (s : State) (r : Receiver) : FrameKept s (s.withRx r) :=
  ⟨rfl, rfl, rfl, rfl, rfl, rfl, rfl, rfl, rfl, rfl, rfl, rfl⟩

theorem countOverruns (n : Nat) (s : State) : FrameKept s (countOverruns n s) := withRx s _

theorem toHunt (s : State) : FrameKept s (toHunt s) := withRx s _

theorem beginReply (kb : Byte) (body : List Byte) (s : State) : FrameKept s (beginReply kb body s) :=
  ⟨rfl, rfl, rfl, rfl, rfl, rfl, rfl, rfl, rfl, rfl, rfl, rfl⟩

theorem returnPages (p : ProgId) (s : State) : FrameKept s (returnPages p s) :=
  ⟨rfl, rfl, rfl, rfl, rfl, rfl, rfl, rfl, rfl, rfl, rfl, rfl⟩

theorem rebuildChain (p : ProgId) (P : Nat) (s : State) : FrameKept s (rebuildChain p P s) :=
  ⟨rfl, rfl, rfl, rfl, rfl, rfl, rfl, rfl, rfl, rfl, rfl, rfl⟩

theorem startProgram (p : ProgId) (s : State) : FrameKept s (startProgram p s) := by
  rw [startProgram_eq]
  have started : Quiet s (startedState p s) :=
    ((((ProgEffect.onProg p s _).trans (.judgeNoSource p _)).trans (.startDelay p _)).trans
      (.setSilence_false p _)).quiet
  have snapped (t : State) : Quiet t (snapGain p t) := .setProg t p _
  exact .ofQuiet (((started.trans (GainEffect.membershipEvent p _).quiet).trans (snapped _)).trans
    ((Quiet.pushNotice ..).trans (ProgEffect.judgeOnBackup p _).quiet))

theorem stopProgram (p : ProgId) (s : State) : FrameKept s (stopProgram p s) := by
  have stopped : Quiet s (membershipEvent p (s.onProg p Program.stopped)) :=
    (ProgEffect.onProg p s Program.stopped).quiet.trans (GainEffect.membershipEvent p _).quiet
  unfold Machine.stopProgram
  dsimp only
  split
  · exact .ofQuiet (stopped.trans (ProgEffect.endStopFade p _).quiet)
  · exact .ofQuiet stopped

theorem restartProgram (p : ProgId) (s : State) : FrameKept s (restartProgram p s) :=
  .ofQuiet ((((ProgEffect.onProg p s Program.rerun).trans (.setSilence_false p _)).trans (.startDelay p _)).quiet.trans
    (GainEffect.membershipEvent p _).quiet)

theorem storeEntryConfig (e : EntryId) (c : EntryConfig) (s : State) : FrameKept s (storeEntryConfig e c s) := by
  have stored (x : Entry) : Quiet s (s.setEntry e x) := .setEntry s e x
  unfold Machine.storeEntryConfig
  dsimp only
  split
  · split
    · exact .ofQuiet ((stored _).trans (AlarmEffect.judgeHealth _ _).quiet)
    · exact .ofQuiet (stored _)
    · exact .ofQuiet (stored _)
  · exact .ofQuiet (stored _)

end FrameKept

theorem Ordered.frame {s t : State} (h : Ordered s t) : FrameKept s t := by
  cases h with
  | same _ frame => exact frame
  | storeFeedConfig f en ex par val =>
    exact .ofQuiet ((Quiet.setFeed s f _).trans (storeFeedConfig_steps f en ex par val s).quiet)
  | clearFeedCounters f => exact .ofQuiet (.setFeed s f _)
  | @defineProgram p _ c ws _ =>
    exact ((FrameKept.returnPages p s).quiet (ProgEffect.onProg p _ _).quiet).quiet (ProgEffect.clearMeasureConds p _).quiet
  | @clearProgram p _ _ =>
    exact (((FrameKept.returnPages p s).quiet (ProgEffect.onProg p _ _).quiet).quiet
      (ProgEffect.setProgCond (by decide) p false _).quiet).quiet (ProgEffect.setProgCond (by decide) p false _).quiet
  | @storeSet p r _ l _ =>
    rw [storeSet_eq]
    exact .ofQuiet ((ProgEffect.onProg p s _).trans (.eligibilityEvent p _)).quiet
  | startProgram _ _ _ => exact .startProgram ..
  | stopProgram _ => exact .stopProgram ..
  | restartProgram _ => exact .restartProgram ..
  | @selectCurrent p r _ _ _ _ => exact .ofQuiet ((ProgEffect.onProg p s _).trans (.setMark p r false _)).quiet
  | @beginSelect p _ _ _ => exact .ofQuiet (.setProg s p _)
  | @storeFailover p _ auto hold reset => exact .ofQuiet (.setProg s p _)
  | @storeLoud p _ mode body link _ => exact .ofQuiet (.setProg s p _)
  | restartMeasurement p => exact .ofQuiet ((ProgEffect.onProg p s _).trans (.setSilence_false p _)).quiet
  | rebuildChain P _ _ => exact .rebuildChain ..
  | storeTarget p ltgt slew n => exact .ofQuiet ((ProgEffect.onProg p s _).trans (.recomputeDelay p _)).quiet
  | storeEntryConfig c _ _ _ => exact .storeEntryConfig ..
  | acknowledge es => exact .ofQuiet (forEach_relation .refl .trans (fun e t => .setEntry t e _) es s)

theorem carriedOut_frame {r : Except Status Taken} {check : Bool} {s : State}
    (h : ∀ t, r = .ok t → FrameKept s t.after) : FrameKept s (carriedOut r check s) := by
  unfold carriedOut
  split
  · exact .refl s
  · split
    · exact .refl s
    · exact h _ rfl

theorem judge_ok {k : Kind} {eval : List Byte → State → Except Status Taken} {m : Msg} {s : State} {t : Taken}
    (h : judge k eval m s = .ok t) : eval m.body s = .ok t := by
  unfold judge at h
  split at h
  · cases h
  · split at h
    · exact h
    · cases h

theorem deliver_frame (k : Kind) (b : Bool) (m : Msg) (s : State) : FrameKept s (deliver k (evalKind k b) m s) := by
  have carried : FrameKept s (carriedOut (judge k (evalKind k b) m s) m.check s) :=
    carriedOut_frame fun t h => (evalKind_ordered (judge_ok h)).frame
  unfold deliver
  dsimp only
  split
  · exact .countOverruns _ s
  · split
    · split
      · exact .toHunt s
      · exact carried.trans (.toHunt _)
    · exact carried.trans (.beginReply ..)

theorem deliverBadKind_frame (kb : Byte) (m : Msg) (s : State) : FrameKept s (deliverBadKind kb m s) := by
  unfold deliverBadKind
  split
  · exact .countOverruns ..
  · split
    · exact .toHunt s
    · exact .beginReply ..

theorem takeByte_frame (b : Byte) (s : State) : FrameKept s (takeByte b s) := by
  have accepted (t : State) : FrameKept t (acceptFrame t) := by
    unfold acceptFrame
    dsimp only
    split
    · exact deliverBadKind_frame ..
    · exact deliver_frame ..
  unfold takeByte
  dsimp only
  split
  · split
    · exact .withRx ..
    · exact .refl s
  · exact .withRx ..
  · exact .withRx ..
  · exact .withRx ..
  · exact .withRx ..
  · split
    · exact (FrameKept.withRx s _).trans (accepted _)
    · exact .withRx ..
  · exact .withRx ..
  · exact .countOverruns 1 s

/-! ## The output sample -/

/-- Two states agree on what an output sample leaves of the unit. -/
structure SampleKept (s t : State) : Prop where
  pending : t.pending = s.pending
  freeCount : t.freeCount = s.freeCount
  unitAddr : t.unitAddr = s.unitAddr
  baud : t.baud = s.baud
  inReset : t.inReset = s.inReset
  resetCause : t.resetCause = s.resetCause
  blockCounter : t.blockCounter = s.blockCounter
  freePages : t.freePages = s.freePages

namespace SampleKept

theorem refl (s : State) : SampleKept s s := ⟨rfl, rfl, rfl, rfl, rfl, rfl, rfl, rfl⟩

theorem trans {a b c : State} (h : SampleKept a b) (g : SampleKept b c) : SampleKept a c :=
  ⟨g.pending.trans h.pending, g.freeCount.trans h.freeCount, g.unitAddr.trans h.unitAddr, g.baud.trans h.baud,
    g.inReset.trans h.inReset, g.resetCause.trans h.resetCause, g.blockCounter.trans h.blockCounter,
    g.freePages.trans h.freePages⟩

theorem ofQuiet {s t : State} (h : Quiet s t) : SampleKept s t :=
  ⟨h.pending, h.freeCount, h.unitAddr, h.baud, h.inReset, h.resetCause, h.blockCounter, h.freePages⟩

theorem clock (s : State) (m : Monitor) (r : Receiver) (n : Nat) : SampleKept s { s with monitor := m, rx := r, tick := n } :=
  ⟨rfl, rfl, rfl, rfl, rfl, rfl, rfl, rfl⟩

theorem positions (s : State) (m n : Nat) : SampleKept s { s with tick := m, sampleInBlock := n } :=
  ⟨rfl, rfl, rfl, rfl, rfl, rfl, rfl, rfl⟩

theorem passTicks (n : Nat) (s : State) : SampleKept s (passTicks n s) := by
  have ports := forEach_relation (R := Quiet) (f := fun f t => t.onPort f (Port.pass n)) .refl .trans
    (fun f t => .setFeed t f _) allFeeds s
  exact (SampleKept.ofQuiet ports).trans (clock ..)

theorem programSample (frames : List (Rat × Rat)) (p : ProgId) (s : State) : SampleKept s (programSample frames p s) := by
  unfold Machine.programSample
  dsimp only
  split <;> exact ⟨rfl, rfl, rfl, rfl, rfl, rfl, rfl, rfl⟩

theorem outputSample (s : State) : SampleKept s (outputSample s) := by
  have advanced := forEach_relation (R := Quiet) .refl .trans (fun f t => Quiet.converterSample f t) allFeeds
    (Machine.passTicks (Config.ticksPerSample - s.tick) s)
  have served (frames : List (Rat × Rat)) := forEach_relation (R := SampleKept) .refl .trans
    (fun p t => programSample frames p t) allProgs
  unfold Machine.outputSample
  dsimp only
  exact (((passTicks _ s).trans (.ofQuiet advanced)).trans (served _ _)).trans (positions ..)

end SampleKept

/-! ## Every command -/

/-- What the command leaves alone of the queue, the straps, the counters, the positions, the ports and the line. -/
def LeftAlone (c : Instr) (s t : State) : Prop := t.pending = s.pending ∧ t.freeCount = s.freeCount ∧
  ((∀ u b, c ≠ .powerOnReset u b) →
    t.unitAddr = s.unitAddr ∧ t.baud = s.baud ∧
    (c ≠ .powerOnResetStart → t.inReset = s.inReset) ∧
    (c ≠ .unitRestart → t.resetCause = s.resetCause) ∧
    (c ≠ .unitRestart → (∀ o, c ≠ .blockClose o) → t.blockCounter = s.blockCounter) ∧
    (c ≠ .outputSample → t.tick = s.tick ∧ ((∀ o, c ≠ .blockClose o) → t.sampleInBlock = s.sampleInBlock)) ∧
    (c ≠ .houseRefEdge → c ≠ .houseRefLossTimeout → c ≠ .outputSample → c ≠ .unitRestart → t.monitor = s.monitor) ∧
    (c.message = none → (∀ b, c ≠ .byteReceived b) → t.freePages = s.freePages) ∧
    (c ≠ .outputSample → c ≠ .unitRestart → c ≠ .powerOnResetStart → t.ports = s.ports) ∧
    (c.message = none → (∀ b, c ≠ .byteReceived b) → c ≠ .receiverGapTimeout → c ≠ .replySent → c ≠ .outputSample →
      c ≠ .unitRestart → c ≠ .powerOnResetStart → t.rx = s.rx ∧ t.reply = s.reply ∧ t.restart = s.restart))

/-- What the command leaves alone, with the Delay Store that the output sample and the end of a power-on reset write. -/
structure Framed (c : Instr) (s t : State) : Prop where
  left : LeftAlone c s t
  store : c ≠ .outputSample → (∀ u b, c ≠ .powerOnReset u b) → t.store = s.store

namespace Framed

variable {c : Instr} {s t : State}

theorem quiet (h : Quiet s t) : Framed c s t :=
  ⟨⟨h.pending, h.freeCount, fun _ => ⟨h.unitAddr, h.baud, fun _ => h.inReset, fun _ => h.resetCause,
    fun _ _ => h.blockCounter, fun _ => ⟨h.tick, fun _ => h.sampleInBlock⟩, fun _ _ _ _ => h.monitor,
    fun _ _ => h.freePages, fun _ _ _ => h.ports, fun _ _ _ _ _ _ _ => ⟨h.rx, h.reply, h.restart⟩⟩⟩, fun _ _ => h.store⟩

/-- A message, a byte received, or another event of the line. -/
theorem line (h : FrameKept s t) (pages : c.message = none → (∀ b, c ≠ .byteReceived b) → t.freePages = s.freePages)
    (own : c.message ≠ none ∨ (∃ b, c = .byteReceived b) ∨ c = .receiverGapTimeout ∨ c = .replySent) : Framed c s t := by
  refine ⟨⟨h.pending, h.freeCount, fun _ => ⟨h.unitAddr, h.baud, fun _ => h.inReset, fun _ => h.resetCause,
    fun _ _ => h.blockCounter, fun _ => ⟨h.tick, fun _ => h.sampleInBlock⟩, fun _ _ _ _ => h.monitor, pages,
    fun _ _ _ => h.ports, fun message byte gap sent _ _ _ => ?_⟩⟩, fun _ _ => h.store⟩
  obtain some | ⟨b, rfl⟩ | rfl | rfl := own
  · exact absurd message some
  · exact absurd rfl (byte b)
  · exact absurd rfl gap
  · exact absurd rfl sent

/-- The pins are judged at the end of a command, and a part in a reset stays as it is. -/
theorem onUnit {f : State → State} (h : onUnit f s = .next t) (w : Framed c s (f s)) : Framed c s t := by
  obtain ⟨-, rfl⟩ | ⟨-, rfl⟩ := onUnit_next h
  · exact quiet (.refl t)
  · exact ⟨w.left, w.store⟩

end Framed

theorem exec_framed_message {c : Instr} {k : Kind} {m : Msg} {s t : State} (kind : c.kind = some k)
    (message : c.message = some m) (h : exec c s = .next t) : Framed c s t := by
  rw [exec_message kind message] at h
  exact .onUnit h (.line (deliver_frame ..) (fun none => by simp [message] at none) (.inl (by simp [message])))

theorem exec_framed_event {c : Instr} {s t : State} (kind : c.kind = none) (h : exec c s = .next t) : Framed c s t := by
  cases c with
  | badKindFrame k m =>
    refine Framed.onUnit (f := fun t => if (readKind k).isSome then t else deliverBadKind k m t) h ?_
    refine .line ?_ (fun none => by cases none) (.inl (by simp [Instr.message]))
    split
    · exact .refl s
    · exact deliverBadKind_frame ..
  | frameEdge f first => exact .onUnit h (.quiet (FeedEffect.frameEdge f first s).quiet)
  | subframeJudged f w => exact .onUnit h (.quiet (FeedEffect.subframeReceived f w s).quiet)
  | feedLossTimeout f first => exact .onUnit h (.quiet (.onlyIf (FeedEffect.declareLoss f first s).quiet))
  | outputSample =>
    have kept := SampleKept.outputSample s
    refine .onUnit h ⟨⟨kept.pending, kept.freeCount, fun _ => ⟨kept.unitAddr, kept.baud, fun _ => kept.inReset,
      fun _ => kept.resetCause, fun _ _ => kept.blockCounter, fun other => absurd rfl other, fun _ _ other => absurd rfl other,
      fun _ _ => kept.freePages, fun other => absurd rfl other, fun _ _ _ _ other => absurd rfl other⟩⟩,
      fun other => absurd rfl other⟩
  | startFadeEnd p => exact .onUnit h (.quiet (.onlyIf (.setProg s p _)))
  | stopFadeEnd p => exact .onUnit h (.quiet (.onlyIf (ProgEffect.endStopFade p s).quiet))
  | swapSwitch p => exact .onUnit h (.quiet (.onlyIf (ProgEffect.swapSwitch p s).quiet))
  | swapEnd p => exact .onUnit h (.quiet (.onlyIf (.setProg s p _)))
  | blockClose o =>
    have work := forEach_relation .refl .trans (fun w t => Quiet.closeWork o (fun p => formsBlock (s.prog p)) w t)
      (closeWorks o) { s with blockCounter := s.blockCounter + 1, sampleInBlock := 0 }
    exact .onUnit h ⟨⟨work.pending, work.freeCount, fun _ => ⟨work.unitAddr, work.baud, fun _ => work.inReset,
      fun _ => work.resetCause, fun _ other => absurd rfl (other o), fun _ => ⟨work.tick, fun other => absurd rfl (other o)⟩,
      fun _ _ _ _ => work.monitor, fun _ _ => work.freePages, fun _ _ _ => work.ports,
      fun _ _ _ _ _ _ _ => ⟨work.rx, work.reply, work.restart⟩⟩⟩, fun _ _ => work.store⟩
  | silenceTimeout p => exact .onUnit h (.quiet (.onlyIf (ProgEffect.setSilence p true s).quiet))
  | returnDue p => exact .onUnit h (.quiet (ProgEffect.beginReturn p s).quiet)
  | slewStepComplete p => exact .onUnit h (.quiet (.onlyIf (ProgEffect.slewComplete p s).quiet))
  | cutJump p => exact .onUnit h (.quiet (.onlyIf (.setProg s p _)))
  | cutInEnd p => exact .onUnit h (.quiet (.onlyIf (ProgEffect.cutInEnd p s).quiet))
  | alarmRaiseDelayExpiry e => exact .onUnit h (.quiet (AlarmEffect.expireRaise e s).quiet)
  | alarmClearDelayExpiry e => exact .onUnit h (.quiet (AlarmEffect.expireClear e s).quiet)
  | houseRefEdge =>
    have work := (FeedEffect.setCond 0 houseRefEntry false
      { s with monitor := { lost := false, timer := some 0, clock := .following } }).quiet
    exact .onUnit h ⟨⟨work.pending, work.freeCount, fun _ => ⟨work.unitAddr, work.baud, fun _ => work.inReset,
      fun _ => work.resetCause, fun _ _ => work.blockCounter, fun _ => ⟨work.tick, fun _ => work.sampleInBlock⟩,
      fun other => absurd rfl other, fun _ _ => work.freePages, fun _ _ _ => work.ports,
      fun _ _ _ _ _ _ _ => ⟨work.rx, work.reply, work.restart⟩⟩⟩, fun _ _ => work.store⟩
  | houseRefLossTimeout =>
    refine .onUnit (f := fun t => if refLossIsDue t then loseRef t else t) h ?_
    split
    · have work := (FeedEffect.setCond 0 houseRefEntry true
        { s with monitor := { lost := true, timer := none, clock := .held } }).quiet
      exact ⟨⟨work.pending, work.freeCount, fun _ => ⟨work.unitAddr, work.baud, fun _ => work.inReset,
        fun _ => work.resetCause, fun _ _ => work.blockCounter, fun _ => ⟨work.tick, fun _ => work.sampleInBlock⟩,
        fun _ other => absurd rfl other, fun _ _ => work.freePages, fun _ _ _ => work.ports,
        fun _ _ _ _ _ _ _ => ⟨work.rx, work.reply, work.restart⟩⟩⟩, fun _ _ => work.store⟩
    · exact .quiet (.refl s)
  | powerOnReset u b =>
    cases h
    exact ⟨⟨rfl, rfl, fun other => absurd rfl (other u b)⟩, fun _ other => absurd rfl (other u b)⟩
  | unitRestart =>
    have work := Quiet.pushNotice .restarted .unit [] { s with
      feeds := s.feeds.map Feed.restarted
      monitor := { s.monitor with lost := false, timer := some 0 }
      progs := s.progs.map Program.unitRestarted
      entries := s.entries.map Entry.restarted
      conds := .replicate 137 false
      notices := [], missed := 0, blockCounter := 0, rx := {}, reply := none, restart := .none
      resetCause := .restart
      ports := .replicate 8 zeroFrame }
    exact .onUnit h ⟨⟨work.pending, work.freeCount, fun _ => ⟨work.unitAddr, work.baud, fun _ => work.inReset,
      fun other => absurd rfl other, fun other => absurd rfl other, fun _ => ⟨work.tick, fun _ => work.sampleInBlock⟩,
      fun _ _ _ other => absurd rfl other, fun _ _ => work.freePages, fun _ other => absurd rfl other,
      fun _ _ _ _ _ other => absurd rfl other⟩⟩, fun _ _ => work.store⟩
  | byteReceived b =>
    exact .onUnit h (.line (takeByte_frame b s) (fun _ other => absurd rfl (other b)) (.inr (.inl ⟨b, rfl⟩)))
  | receiverGapTimeout =>
    refine .onUnit (f := fun t => if gapReaches 4 t then abandonFrame t else t) h ?_
    split
    · exact .line (.withRx s _) (fun _ _ => rfl) (.inr (.inr (.inl rfl)))
    · exact .quiet (.refl s)
  | replySent =>
    refine .onUnit (f := fun t => if t.rx.state = .busy then endReply t else t) h ?_
    split
    · exact .line ⟨rfl, rfl, rfl, rfl, rfl, rfl, rfl, rfl, rfl, rfl, rfl, rfl⟩ (fun _ _ => rfl) (.inr (.inr (.inr rfl)))
    · exact .quiet (.refl s)
  | powerOnResetStart =>
    cases h
    exact ⟨⟨rfl, rfl, fun _ => ⟨rfl, rfl, fun other => absurd rfl other, fun _ => rfl, fun _ _ => rfl,
      fun _ => ⟨rfl, fun _ => rfl⟩, fun _ _ _ _ => rfl, fun _ _ => rfl, fun _ _ other => absurd rfl other,
      fun _ _ _ _ _ _ other => absurd rfl other⟩⟩, fun _ _ => rfl⟩
  | _ => cases kind

/-- Every command leaves alone what it is to leave: a message by `FrameKept`, an event by `Quiet` but for its own. -/
theorem exec_framed {c : Instr} {s t : State} (h : exec c s = .next t) : Framed c s t := by
  cases kind : c.kind with
  | none => exact exec_framed_event kind h
  | some k =>
    obtain ⟨m, message⟩ := message_of_kind kind
    exact exec_framed_message kind message h

/-- Settles O2, by what every command leaves alone. -/
theorem commandsKeepFrame : Obligations.CommandsKeepFrame := fun _ _ _ h => (exec_framed h).left

end Sys2Proof.Machine
end

section
/-! PROOFS. Messages of the control line: refusals, messages that are not taken, the check form, and the queries. -/
namespace Sys2Proof.Machine

/-! ## A message taken -/

section
variable {c : Instr} {k : Kind} {m : Msg} {s : State}

theorem isBroadcast_eq_true (broadcast : m.broadcast = true) : isBroadcast m s = true := by simp [isBroadcast, broadcast]

theorem isBroadcast_eq_false (addressed : m.broadcast = false) (own : s.unitAddr ≠ 31) : isBroadcast m s = false := by
  simp only [isBroadcast, addressed, beq_eq_false_iff_ne.2 own, Bool.or_self]

theorem Commands.addressed (h : Commands s m) : isBroadcast m s = false := by
  obtain ⟨⟨-, -, addressed, own⟩, -⟩ := h
  exact isBroadcast_eq_false addressed own

/-- A command whose tests refuse it is answered with the status alone. -/
theorem exec_refused {st : Status} (kind : c.kind = some k) (message : c.message = some m) (h : Commands s m)
    (refused : judge k (evalKind k false) m s = .error st) : exec c s = .next (replying k [BitVec.ofNat 8 st.code] s) := by
  rw [exec_message kind message, h.addressed, onUnit_running h.1.1, deliver_addressed h.1, refused, h.2, kindByte_plain]
  rfl

theorem judge_badLength (h : Commands s m) {eval : List Byte → State → Except Status Taken}
    (length : k.lengthOk m.body.length = false) : judge k eval m s = .error .badLength := by
  simp [judge, h.2, length]

theorem judge_eval (h : Commands s m) {eval : List Byte → State → Except Status Taken}
    (length : k.lengthOk m.body.length = true) : judge k eval m s = eval m.body s := by
  simp [judge, h.2, length]

end

/-! ## Kind bytes (R151) -/

theorem Kind.ofCode_code (k : Kind) : Kind.ofCode k.code = some k := by cases k <;> rfl

theorem Kind.ofCode_eq_none {n : Nat} (h : ∀ k : Kind, k.code ≠ n) : Kind.ofCode n = none := by
  unfold Kind.ofCode
  rw [List.find?_eq_none]
  exact fun k _ => by simp [h k]

/-- The three kinds of a bad kind byte. -/
theorem readKind_bad {kb : Byte} (bad : kb.getLsbD 7 = true ∨ (∀ k : Kind, k.code ≠ kb.toNat % 64) ∨
    ∃ k : Kind, k.code = kb.toNat % 64 ∧ k.isQuery = true ∧ kb.getLsbD 6 = true) : readKind kb = none := by
  unfold readKind
  obtain reply | unknown | ⟨k, code, query, check⟩ := bad
  · rw [if_pos reply]
  · rw [Kind.ofCode_eq_none unknown]
    split <;> rfl
  · rw [← code, Kind.ofCode_code]
    dsimp only
    rw [query, check]
    split <;> rfl

theorem exec_badKind {kb : Byte} {m : Msg} {s : State} (reset : s.inReset = false) (bad : readKind kb = none) :
    exec (.badKindFrame kb m) s = .next (judgePins (deliverBadKind kb m s)) := by
  have run := onUnit_running (f := fun t => if (readKind kb).isSome then t else deliverBadKind kb m t) reset
  simp only [bad, Option.isSome_none, Bool.false_eq_true, if_false] at run
  refine Eq.trans ?_ run
  unfold exec execBadKindFrame
  simp [bad]

/-! ## Refusals -/

theorem feedIndex_high {n : Nat} (h : 16 ≤ n) : feedIndex n = .error .badTarget := by
  unfold feedIndex; rw [dif_neg (by omega)]

theorem progIndex_high {n : Nat} (h : 8 ≤ n) : progIndex n = .error .badTarget := by
  unfold progIndex; rw [dif_neg (by omega)]

theorem entryIndex_high {n : Nat} (h : 137 ≤ n) : entryIndex n = .error .badTarget := by
  unfold entryIndex; rw [dif_neg (by omega)]

theorem ackNames_high {n : Nat} (h : 137 ≤ n) (one : n ≠ 0xFF) : ackNames n = .error .badTarget := by
  unfold ackNames; rw [if_neg one, entryIndex_high h]

/-- A test that fails ends the chain. -/
theorem bind_eq_error {α β : Type} {x : Except Status α} {st : Status} (h : x = .error st) (f : α → Except Status β) :
    (x >>= f) = .error st := by rw [h]; rfl

theorem byteAt_head {l : List Byte} {b : Byte} (h : l.head? = some b) : byteAt l 0 = b.toNat := by
  cases l with
  | nil => cases h
  | cons x l => cases h; rfl

/-- What an index has to be for the message to name nothing. -/
def BadTarget (k : Kind) (b : Byte) : Prop :=
  match k with
  | .ident | .restart | .linkStats | .notices | .poolQuery => False
  | .feedConfig | .feedQuery => 16 ≤ b.toNat
  | .alarmConfig | .alarmQuery | .alarmScan => 137 ≤ b.toNat
  | .alarmAck => 137 ≤ b.toNat ∧ b ≠ 0xFF
  | _ => 8 ≤ b.toNat

/-- Every message with an index tests it first. -/
theorem evalKind_badTarget {k : Kind} {b : Byte} {body : List Byte} {s : State} (head : body.head? = some b)
    (bad : BadTarget k b) (broadcast : Bool) : evalKind k broadcast body s = .error .badTarget := by
  have first := byteAt_head head
  cases k with
  | ident => exact absurd bad id
  | restart => exact absurd bad id
  | linkStats => exact absurd bad id
  | notices => exact absurd bad id
  | poolQuery => exact absurd bad id
  | feedConfig => exact bind_eq_error (by rw [first, feedIndex_high bad]) _
  | feedQuery => exact bind_eq_error (by rw [first, feedIndex_high bad]) _
  | alarmConfig => exact bind_eq_error (by rw [first, entryIndex_high bad]) _
  | alarmQuery => exact bind_eq_error (by rw [first, entryIndex_high bad]) _
  | alarmScan => exact bind_eq_error (by rw [first, entryIndex_high bad]) _
  | alarmAck =>
    have one : b.toNat ≠ 0xFF := fun e => bad.2 (BitVec.eq_of_toNat_eq e)
    exact bind_eq_error (by rw [first, ackNames_high bad.1 one]) _
  | _ => exact bind_eq_error (by rw [first, progIndex_high bad]) _

/-- Settles O8: a bad kind byte never reaches a kind, and every message tests its length and then its index first. -/
theorem refusalsAnswered : Obligations.RefusalsAnswered := by
  refine ⟨fun s m kb reset free own bad => ⟨fun addressed => ?_, fun broadcast => ?_⟩,
    fun c k m s kind message h => ⟨fun length => ?_, fun b length head bad => ?_, fun st => exec_refused kind message h⟩⟩
  · rw [exec_badKind reset (readKind_bad bad), deliverBadKind, if_neg free, isBroadcast_eq_false addressed own]
    rfl
  · rw [exec_badKind reset (readKind_bad bad), deliverBadKind, if_neg free, isBroadcast_eq_true broadcast]
    rfl
  · exact exec_refused kind message h (judge_badLength h length)
  · exact exec_refused kind message h ((judge_eval h length).trans (evalKind_badTarget head bad false))

/-! ## Messages not taken -/

theorem kind_of_message {c : Instr} {m : Msg} (message : c.message = some m) :
    (∃ k, c.kind = some k) ∨ ∃ kb, c = .badKindFrame kb m := by
  cases c with
  | badKindFrame kb n => cases message; exact .inr ⟨kb, rfl⟩
  | _ => cases message <;> exact .inl ⟨_, rfl⟩

theorem countOverruns_frame (m : Msg) (s : State) : countOverruns (frameBytes m) s =
    { s with rx := { s.rx with overrun := min (s.rx.overrun + (m.body.length + 5)) 65535 } } := rfl

/-- Settles O9. -/
theorem messagesNotTaken : Obligations.MessagesNotTaken := by
  refine fun c m s message wf reset => ⟨fun busy => ?_, fun free broadcast query => ?_⟩
  · rw [← countOverruns_frame]
    obtain ⟨k, kind⟩ | ⟨kb, rfl⟩ := kind_of_message message
    · rw [exec_message kind message, onUnit_running reset, deliver_busy busy]
    · have bad : readKind kb = none := by simpa [Instr.kindWf] using wf
      rw [exec_badKind reset bad, deliverBadKind, if_pos busy]
  · have ignored {k : Kind} (kind : c.kind = some k) (isQuery : k.isQuery = true) :
        exec c s = .next (judgePins (toHunt s)) := by
      rw [exec_message kind message, onUnit_running reset, deliver_broadcast free (isBroadcast_eq_true broadcast), isQuery]
      rfl
    obtain rfl | rfl | rfl | rfl | rfl | rfl | rfl | rfl | rfl | rfl := query <;> exact ignored rfl rfl

/-! ## The check form (R152) -/

theorem carriedOut_check (r : Except Status Taken) (s : State) : carriedOut r true s = s := by
  cases r <;> rfl

theorem deliver_check_broadcast {k : Kind} {eval : List Byte → State → Except Status Taken} {m : Msg} {s : State}
    (free : s.rx.state ≠ .busy) (check : m.check = true) (broadcast : m.broadcast = true) :
    deliver k eval m s = toHunt s := by
  rw [deliver_broadcast free (isBroadcast_eq_true broadcast), check, carriedOut_check]
  split <;> rfl

/-- An addressed message is judged, carried out and answered. -/
theorem exec_answered {c : Instr} {k : Kind} {m : Msg} {s : State} (kind : c.kind = some k) (message : c.message = some m)
    (h : Answers s m) :
    exec c s = .next (judgePins (beginReply (kindByte k m.check) (replyBody (judge k (evalKind k false) m s))
      (carriedOut (judge k (evalKind k false) m s) m.check s))) := by
  have answered := h
  obtain ⟨reset, -, addressed, own⟩ := answered
  rw [exec_message kind message, onUnit_running reset, isBroadcast_eq_false addressed own, deliver_addressed h]

/-- An addressed check form is answered, and changes nothing else. -/
theorem exec_check {c : Instr} {k : Kind} {m : Msg} {s : State} (kind : c.kind = some k) (message : c.message = some m)
    (check : m.check = true) (h : Answers s m) :
    exec c s = .next (judgePins (beginReply (kindByte k true) (replyBody (judge k (evalKind k false) m s)) s)) := by
  rw [exec_answered kind message h, check, carriedOut_check]

/-- Settles O10: a check form is judged as the command is, and carried out nowhere. -/
theorem checkFormChangesNothing : Obligations.CheckFormChangesNothing := by
  refine ⟨fun c m s message wf check reset free => ⟨fun addressed own => ?_, fun broadcast => ?_⟩,
    fun c c' k m s kind kind' message message' h => ⟨fun command => ?_, fun query => ?_⟩⟩
  · obtain ⟨k, kind⟩ | ⟨kb, rfl⟩ := kind_of_message message
    · exact ⟨_, exec_check kind message check ⟨reset, free, addressed, own⟩⟩
    · have bad : readKind kb = none := by simpa [Instr.kindWf] using wf
      refine ⟨replyFrame s.unitAddr kb (byte1 Status.badKind.code), ?_⟩
      rw [exec_badKind reset bad, deliverBadKind, if_neg free, isBroadcast_eq_false addressed own]
      rfl
  · obtain ⟨k, kind⟩ | ⟨kb, rfl⟩ := kind_of_message message
    · rw [exec_message kind message, onUnit_running reset, deliver_check_broadcast free check broadcast]
      rfl
    · have bad : readKind kb = none := by simpa [Instr.kindWf] using wf
      rw [exec_badKind reset bad, deliverBadKind, if_neg free, isBroadcast_eq_true broadcast]
      rfl
  · have same : judge k (evalKind k false) { m with check := true } s =
        judge k (evalKind k false) { m with check := false } s := by simp [judge, command]
    generalize hr : judge k (evalKind k false) { m with check := false } s = r at same
    have carried : FrameKept s (carriedOut r false s) :=
      carriedOut_frame fun t ok => (evalKind_ordered (judge_ok (hr.trans ok))).frame
    have plain := exec_answered kind' message' h
    rw [hr] at plain
    refine ⟨replyBody r, _, plain, ?_, ?_⟩
    · change some (replyFrame _ (kindByte k false) _) = _
      rw [carried.unitAddr, kindByte_plain]
    · rw [exec_check kind message rfl h, same]
      rfl
  · have refused : judge k (evalKind k false) { m with check := true } s = .error .badKind := by simp [judge, query]
    rw [exec_check kind message rfl h, refused]
    rfl

end Sys2Proof.Machine
end

section
/-! PROOFS. The receiver: a frame byte by byte, bytes and gaps outside a frame's acceptance, and the end of a reply. -/
namespace Sys2Proof.Machine

/-! ## A byte in each state of the receiver (R147 to R149) -/

section
variable {s : State}

theorem takeByte_hunt (h : s.rx.state = .hunt) : takeByte 0x5A#8 s = s.withRx { s.rx with state := .address, gapTimer := 0 } := by
  unfold takeByte; rw [h]; rfl

theorem takeByte_hunt_ne (h : s.rx.state = .hunt) {b : Byte} (hb : b ≠ 0x5A) : takeByte b s = s := by
  unfold takeByte; rw [h]; exact if_neg hb

theorem takeByte_address (h : s.rx.state = .address) (b : Byte) :
    takeByte b s = s.withRx { s.rx with state := .kind, address := b, gapTimer := 0 } := by
  unfold takeByte; rw [h]

theorem takeByte_kind (h : s.rx.state = .kind) (b : Byte) :
    takeByte b s = s.withRx { s.rx with state := .length, kind := b, gapTimer := 0 } := by
  unfold takeByte; rw [h]

theorem takeByte_length (h : s.rx.state = .length) (b : Byte) :
    takeByte b s = s.withRx (({ s.rx with gapTimer := 0 } : Receiver).takeLength s.unitAddr b) := by
  unfold takeByte; rw [h]

theorem takeByte_body (h : s.rx.state = .body) (b : Byte) :
    takeByte b s = s.withRx (({ s.rx with gapTimer := 0 } : Receiver).takeBody b) := by
  unfold takeByte; rw [h]

theorem takeByte_skip (h : s.rx.state = .skip) (b : Byte) :
    takeByte b s = s.withRx ({ s.rx with gapTimer := 0 } : Receiver).takeSkip := by
  unfold takeByte; rw [h]

theorem takeByte_busy (h : s.rx.state = .busy) (b : Byte) : takeByte b s = countOverruns 1 s := by
  unfold takeByte; rw [h]

theorem takeByte_check (h : s.rx.state = .check) (b : Byte) : takeByte b s =
    if ({ s.rx with gapTimer := 0 } : Receiver).sumWith b = 0 then acceptFrame (s.withRx { s.rx with gapTimer := 0 })
    else s.withRx ({ s.rx with gapTimer := 0 } : Receiver).failCheck := by
  unfold takeByte; rw [h]

/-- The body bytes that are still to come bring the receiver to its check byte. -/
theorem takeBody_all (bytes : List Byte) : ∀ {s : State}, s.rx.state = .body → bytes ≠ [] → bytes.length = s.rx.left →
    bytes.foldl (fun t x => takeByte x t) s =
      s.withRx { s.rx with state := .check, gapTimer := 0, body := s.rx.body ++ bytes, left := 0 } := by
  induction bytes with
  | nil => exact fun _ none => absurd rfl none
  | cons b bytes ih =>
    intro s state _ left
    rw [List.foldl_cons, takeByte_body state]
    cases bytes with
    | nil =>
      have last : s.rx.left = 1 := left.symm
      simp [Receiver.takeBody, State.withRx, last]
    | cons x bytes =>
      have more : ¬s.rx.left ≤ 1 := by simp at left; omega
      rw [ih (by simp [Receiver.takeBody, State.withRx, more]) (by simp)
        (by simp [Receiver.takeBody, State.withRx]; simp at left; omega)]
      simp [Receiver.takeBody, State.withRx]

/-- The bytes of a skipped frame bring the receiver back to HUNT, whatever they are (R148). -/
theorem takeSkip_all (bytes : List Byte) : ∀ {s : State}, s.rx.state = .skip → bytes ≠ [] → bytes.length = s.rx.left →
    bytes.foldl (fun t x => takeByte x t) s =
      s.withRx { s.rx with state := .hunt, gapTimer := 0, left := 0 } := by
  induction bytes with
  | nil => exact fun _ none => absurd rfl none
  | cons b bytes ih =>
    intro s state _ left
    rw [List.foldl_cons, takeByte_skip state]
    cases bytes with
    | nil =>
      have last : s.rx.left = 1 := left.symm
      simp [Receiver.takeSkip, State.withRx, last]
    | cons x bytes =>
      have more : ¬s.rx.left ≤ 1 := by simp at left; omega
      rw [ih (by simp [Receiver.takeSkip, State.withRx, more]) (by simp)
        (by simp [Receiver.takeSkip, State.withRx]; simp at left; omega)]
      simp [Receiver.takeSkip, State.withRx]

/-! ## Outside a frame's acceptance -/

theorem takeLength_unreadable {r : Receiver} {u : BitVec 5} {b : Byte} (long : 160 < b.toNat) :
    r.takeLength u b = r.failCheck := by unfold Receiver.takeLength; rw [if_pos long]

theorem takeLength_other {r : Receiver} {u : BitVec 5} {b : Byte} (short : b.toNat ≤ 160)
    (other : r.address.getLsbD 7 = true ∨ r.address.truncate 5 ≠ u ∧ r.address.truncate 5 ≠ 31#5) :
    r.takeLength u b = { r with state := .skip, length := b, left := b.toNat + 1 } := by
  unfold Receiver.takeLength
  rw [if_neg (by omega), if_pos]
  unfold addressField
  simpa [bne_iff_ne] using other

theorem exec_byte (reset : s.inReset = false) (b : Byte) : exec (.byteReceived b) s = .next (judgePins (takeByte b s)) :=
  onUnit_running reset

theorem gapReaches_four : gapReaches 4 s = true ↔
    s.rx.state ≠ .hunt ∧ s.rx.state ≠ .busy ∧ 40 * 24576000 ≤ s.rx.gapTimer * lineRate s.baud := by
  unfold gapReaches RxState.timed
  rw [Bool.and_eq_true, decide_eq_true_eq, ← and_assoc]
  refine and_congr ?_ Iff.rfl
  cases s.rx.state <;> simp

theorem exec_gap (reset : s.inReset = false) : exec .receiverGapTimeout s =
    .next (judgePins (if gapReaches 4 s then abandonFrame s else s)) := onUnit_running reset

theorem exec_replySent (reset : s.inReset = false) : exec .replySent s =
    .next (judgePins (if s.rx.state = .busy then endReply s else s)) := onUnit_running reset

end

/-- Settles O7, state by state of the receiver. -/
theorem receiverEvents : Obligations.ReceiverEvents := by
  intro s b reset
  refine ⟨fun hunt other => ?_, fun hunt => ?_, fun length long => ?_, fun length short other => ?_,
    fun skip bytes some left => takeSkip_all bytes skip some left, fun busy => ?_, fun check wrong => ?_,
    fun hunt busy gap => ?_, fun short => ?_, fun busy => ?_⟩
  · rw [exec_byte reset, takeByte_hunt_ne hunt other]
  · exact (exec_byte reset 0x5A#8).trans (by rw [takeByte_hunt hunt]; rfl)
  · rw [exec_byte reset, takeByte_length length, takeLength_unreadable long]; rfl
  · rw [exec_byte reset, takeByte_length length]
    have skipped := takeLength_other (r := { s.rx with gapTimer := 0 }) (u := s.unitAddr) short other
    rw [skipped]
    rfl
  · rw [exec_byte reset, takeByte_busy busy]; rfl
  · have fails : ¬({ s.rx with gapTimer := 0 } : Receiver).sumWith b = 0 := wrong
    rw [exec_byte reset, takeByte_check check, if_neg fails]
    rfl
  · rw [exec_gap reset, if_pos (gapReaches_four.2 ⟨hunt, busy, gap⟩)]; rfl
  · rw [exec_gap reset, if_neg]
    rw [gapReaches_four]
    rintro ⟨hunt, busy, gap⟩
    obtain h | h | h := short
    · exact hunt h
    · exact busy h
    · omega
  · rw [exec_replySent reset, if_pos busy]; rfl

/-! ## A frame (section 10.1) -/

theorem readKind_kindByte {k : Kind} {check : Bool} (h : (k.isQuery && check) = false) :
    readKind (kindByte k check) = some (k, check) := by
  cases check with
  | false => cases k <;> rfl
  | true => cases k <;> first | rfl | cases h

/-- The check byte brings the sum of a frame to 0. -/
theorem sum_checkByte (l : List Byte) : (l ++ [checkByte l]).foldl (· + ·) 0 = 0 := by
  rw [List.foldl_append]
  unfold checkByte
  simp

theorem addressField_zeroExtend (u : BitVec 5) : addressField (u.zeroExtend 8) = u := by
  unfold addressField
  simp

theorem zeroExtend_direction (u : BitVec 5) : (u.zeroExtend 8).getLsbD 7 = false := by simp

theorem takeLength_own {r : Receiver} {u v : BitVec 5} {body : List Byte} (short : body.length ≤ 160)
    (address : r.address = u.zeroExtend 8) (own : u = v ∨ u = 31) :
    r.takeLength v (BitVec.ofNat 8 body.length) =
      { r with
        state := if body = [] then .check else .body, length := BitVec.ofNat 8 body.length, body := []
        left := body.length } := by
  have length : (BitVec.ofNat 8 body.length).toNat = body.length := by
    rw [BitVec.toNat_ofNat]; exact Nat.mod_eq_of_lt (by omega)
  have zero : BitVec.ofNat 8 body.length = 0 ↔ body = [] := by
    rw [← BitVec.toNat_inj, length, ← List.length_eq_zero_iff]
    rfl
  have mine : (r.address.getLsbD 7 || (addressField r.address != v && addressField r.address != 31)) = false := by
    rw [address, zeroExtend_direction, addressField_zeroExtend]
    obtain rfl | rfl := own <;> simp
  unfold Receiver.takeLength
  rw [length, if_neg (by omega), mine, if_neg Bool.false_ne_true]
  by_cases empty : body = []
  · subst empty
    rfl
  · rw [if_neg (mt zero.1 empty), if_neg empty]

/-- The receiver once the length byte of a frame for the unit and its body have been taken. -/
theorem takeBody_frame {s : State} {body : List Byte}
    (state : s.rx.state = if body = [] then .check else .body) (empty : s.rx.body = []) (left : s.rx.left = body.length)
    (gap : s.rx.gapTimer = 0) : body.foldl (fun t x => takeByte x t) s =
      s.withRx { s.rx with state := .check, gapTimer := 0, body := body, left := 0 } := by
  by_cases none : body = []
  · subst none
    rw [if_pos rfl] at state
    rw [List.length_nil] at left
    obtain ⟨r, hr⟩ : ∃ r, s.rx = r := ⟨_, rfl⟩
    cases r
    simp only [hr] at state empty left gap
    subst state empty left gap
    simp only [List.foldl_nil, hr, State.withRx]
    rw [← hr]
  · rw [if_neg none] at state
    rw [takeBody_all body state none left.symm, empty, List.nil_append]

theorem acceptFrame_eq {s : State} {k : Kind} {check : Bool} {u : BitVec 5} (plain : (k.isQuery && check) = false)
    (kind : s.rx.kind = kindByte k check) (address : s.rx.address = u.zeroExtend 8) :
    acceptFrame s = deliver k (evalKind k (isBroadcast { broadcast := u == 31, check := check, body := s.rx.body } s))
      { broadcast := u == 31, check := check, body := s.rx.body } s := by
  unfold acceptFrame
  dsimp only
  rw [kind, address, readKind_kindByte plain, addressField_zeroExtend]

/-- The start, address, kind and length bytes of a frame. -/
theorem takeHeader {s : State} (hunt : s.rx.state = .hunt) (address kind length : Byte) :
    [0x5A#8, address, kind, length].foldl (fun t x => takeByte x t) s =
      s.withRx (({ s.rx with state := .length, address := address, kind := kind, gapTimer := 0 } : Receiver).takeLength
        s.unitAddr length) := by
  simp only [List.foldl_cons, List.foldl_nil]
  rw [takeByte_hunt hunt, takeByte_address (s := s.withRx _) rfl, takeByte_kind (s := State.withRx _ _) rfl,
    takeByte_length (s := State.withRx _ _) rfl]
  rfl

/-- Settles O6: each byte of the frame takes the receiver one state on, and the check byte brings the sum to 0. -/
theorem frameIsMessage : Obligations.FrameIsMessage := by
  intro s k check u body hunt short own plain
  have bytes (l : List Byte) : 0x5A#8 :: ([u.zeroExtend 8, kindByte k check, BitVec.ofNat 8 body.length] ++ body) ++ l =
      [0x5A#8, u.zeroExtend 8, kindByte k check, BitVec.ofNat 8 body.length] ++ (body ++ l) := by simp
  have length := takeLength_own (r := { s.rx with
    state := .length, address := u.zeroExtend 8, kind := kindByte k check, gapTimer := 0 }) short rfl own
  dsimp only
  rw [bytes, List.foldl_append, takeHeader hunt, length, List.foldl_append,
    takeBody_frame (s := s.withRx _) rfl rfl rfl rfl, List.foldl_cons, List.foldl_nil,
    takeByte_check (s := State.withRx _ _) rfl, if_pos, acceptFrame_eq plain rfl rfl]
  · rfl
  · exact sum_checkByte ([u.zeroExtend 8, kindByte k check, BitVec.ofNat 8 body.length] ++ body)

end Sys2Proof.Machine
end

section
/-! PROOFS. The queries and the unit's own messages: their replies, and the lengths of these. -/
namespace Sys2Proof.Machine

/-! ## Queries -/

/-- An addressed command that passes its tests is carried out and answered. -/
theorem exec_ok {c : Instr} {k : Kind} {m : Msg} {s : State} {t : Taken} (kind : c.kind = some k)
    (message : c.message = some m) (h : Commands s m) (length : k.lengthOk m.body.length = true)
    (ok : evalKind k false m.body s = .ok t) : exec c s = .next (replying k (byte1 t.status.code ++ t.fields) t.after) := by
  rw [exec_message kind message, h.addressed]
  exact onUnit_deliver_ok h length ok

/-- A command carried out without a clamp is answered OK with its fields. -/
theorem exec_taken {c : Instr} {k : Kind} {m : Msg} {s t : State} {fields : List Byte} (kind : c.kind = some k)
    (message : c.message = some m) (h : Commands s m) (length : k.lengthOk m.body.length = true)
    (ok : evalKind k false m.body s = .ok { fields := fields, after := t }) :
    exec c s = .next (replying k (0 :: fields) t) := exec_ok kind message h length ok

theorem byte1_zeroExtend (u : BitVec 5) : byte1 u.toNat = [u.zeroExtend 8] := by
  unfold byte1
  rw [List.singleton_inj]
  exact BitVec.eq_of_toNat_eq (by simp)

theorem byte2_headPage (s : State) : headPage s = byte2 (s.freePages.headD 0xFFFF) := by
  unfold headPage; cases s.freePages <;> rfl

section
variable {s : State} {m : Msg} (h : Commands s m)
include h

theorem exec_ident (body : m.body = []) : exec (.ident m) s =
    .next (replying .ident
      ([0x00, 0x0B, 0x18, 0x01, s.unitAddr.zeroExtend 8, BitVec.ofNat 8 s.resetCause.code,
        BitVec.ofNat 8 s.monitor.lost.toNat] ++ byte4 s.blockCounter.toNat) s) := by
  refine (exec_taken (c := .ident m) rfl rfl h (by rw [body]; rfl) rfl).trans ?_
  rw [byte1_zeroExtend]
  rfl

theorem exec_poolQuery (body : m.body = []) : exec (.poolQuery m) s =
    .next (replying .poolQuery
      (0 :: (byte2 s.freePages.length ++ byte2 (s.freePages.headD 0xFFFF) ++
        allProgs.flatMap fun p => byte1 (s.prog p).delay.reserve ++ byte2 (s.prog p).delay.chain.length)) s) := by
  refine (exec_taken (c := .poolQuery m) rfl rfl h (by rw [body]; rfl) rfl).trans ?_
  rw [byte2_headPage]

theorem exec_progQuery {p : ProgId} (body : m.body = [BitVec.ofNat 8 p.val]) :
    exec (.progQuery m) s = .next (replying .progQuery (0 :: progQueryFields s p) s) :=
  exec_taken (c := .progQuery m) rfl rfl h (by rw [body]; rfl)
    (by simp only [body, evalKind, evalProgQuery, byteAt_zero, progIndex_val]; rfl)

theorem exec_loudQuery {p : ProgId} (body : m.body = [BitVec.ofNat 8 p.val]) :
    exec (.loudQuery m) s = .next (replying .loudQuery (0 :: loudQueryFields s p) s) :=
  exec_taken (c := .loudQuery m) rfl rfl h (by rw [body]; rfl)
    (by simp only [body, evalKind, evalLoudQuery, byteAt_zero, progIndex_val]; rfl)

theorem exec_delayQuery {p : ProgId} (body : m.body = [BitVec.ofNat 8 p.val]) :
    exec (.delayQuery m) s = .next (replying .delayQuery (0 :: delayQueryFields s p) s) :=
  exec_taken (c := .delayQuery m) rfl rfl h (by rw [body]; rfl)
    (by simp only [body, evalKind, evalDelayQuery, byteAt_zero, progIndex_val]; rfl)

theorem exec_alarmQuery {e : EntryId} (body : m.body = [BitVec.ofNat 8 e.val]) :
    exec (.alarmQuery m) s = .next (replying .alarmQuery (0 :: alarmQueryFields s e) s) :=
  exec_taken (c := .alarmQuery m) rfl rfl h (by rw [body]; rfl)
    (by simp only [body, evalKind, evalAlarmQuery, byteAt_zero, entryIndex_val]; rfl)

theorem exec_alarmScan {e : EntryId} (body : m.body = [BitVec.ofNat 8 e.val]) {found : List EntryId}
    (hf : found = (allEntries.filter fun d => decide (e ≤ d) && scanLists s d).take 64) :
    exec (.alarmScan m) s = .next (replying .alarmScan
      (0 :: (byte1 found.length ++ nextIdentifier found ++ found.flatMap (listing s))) s) :=
  exec_taken (c := .alarmScan m) rfl rfl h (by rw [body]; rfl)
    (by simp only [body, evalKind, evalAlarmScan, byteAt_zero, entryIndex_val, hf]; rfl)

theorem exec_linkStats {clear : Bool} (body : m.body = [BitVec.ofNat 8 clear.toNat]) : exec (.linkStats m) s =
    .next (replying .linkStats (0 :: (byte2 s.rx.checkFail ++ byte2 s.rx.gap ++ byte2 s.rx.overrun))
      (if clear then { s with rx := { s.rx with checkFail := 0, gap := 0, overrun := 0 } } else s)) :=
  exec_taken (c := .linkStats m) rfl rfl h (by rw [body]; rfl)
    (by simp only [body, evalKind, evalLinkStats, byteAt_zero, onOffOfCode_val]; rfl)

theorem exec_feedQuery {f : FeedId} {clear : Bool} (body : m.body = [BitVec.ofNat 8 f.val, BitVec.ofNat 8 clear.toNat]) :
    exec (.feedQuery m) s = .next (replying .feedQuery (0 :: feedQueryFields s f)
      (if clear then clearFeedCounters f s else s)) :=
  exec_taken (c := .feedQuery m) rfl rfl h (by rw [body]; rfl)
    (by simp only [body, evalKind, evalFeedQuery, byteAt_zero, feedIndex_val, byteAt_succ, onOffOfCode_val]; rfl)

end

/-- Settles O11, query by query. -/
theorem queriesReport : Obligations.QueriesReport := by
  intro s m h
  refine ⟨exec_ident h, exec_poolQuery h,
    fun p body => ⟨exec_progQuery h body, exec_loudQuery h body, exec_delayQuery h body⟩,
    fun e body => ⟨exec_alarmQuery h body, _, rfl, exec_alarmScan h body rfl⟩, fun clear => exec_linkStats h,
    fun f clear => exec_feedQuery h⟩

/-! ## Lengths of replies (R161) -/

/-- Lists of one length each, joined. -/
theorem length_flatMap_const {α : Type} {l : List α} {f : α → List Byte} {n : Nat} (h : ∀ x, (f x).length = n) :
    (l.flatMap f).length = l.length * n := by
  rw [List.length_flatMap]
  simp [h]

theorem Channel.fields_length (c : Channel) : c.fields.length = 7 := rfl

theorem Converter.fields_length (c : Converter) : c.fields.length = 14 := rfl

theorem spanFields_length (x : Option Span) : (spanFields x).length = 3 := by cases x <;> rfl

theorem setBytes_length (v : Option (List SlotSource)) : (setBytes v).length = 17 := by simp [setBytes]

theorem stackByte_length (g : Program) (n : Nat) : (stackByte g n).length = 1 := by
  unfold stackByte; split <;> rfl

theorem headPage_length (s : State) : (headPage s).length = 2 := by rw [byte2_headPage, byte2_length]

theorem record_length (x : Notice) : x.record.length = 12 := by simp [Notice.record]

theorem nextIdentifier_length (l : List EntryId) : (nextIdentifier l).length = 1 := by
  unfold nextIdentifier
  split
  · rfl
  · split <;> rfl

theorem feedQueryFields_length (s : State) (f : FeedId) : (feedQueryFields s f).length = 36 := by
  simp [feedQueryFields, feedConfigFields, Channel.fields_length, Converter.fields_length, spanFields_length]

theorem progQueryFields_length (s : State) (p : ProgId) : (progQueryFields s p).length = 108 := by
  have sets : (allRanks.flatMap fun r => setBytes ((s.prog p).setAt r)).length = allRanks.length * 17 :=
    length_flatMap_const fun _ => setBytes_length _
  have ranks : allRanks.length = 4 := List.length_finRange
  unfold progQueryFields weightBytes
  dsimp only
  simp only [List.length_append, byte1_length, byte2_length, bool1_length, rankByte_length, padTo_length,
    stackByte_length, sets, ranks]
  rw [bits1_length, bits1_length]

theorem loudQueryFields_length (s : State) (p : ProgId) : (loudQueryFields s p).length = 22 := by
  simp [loudQueryFields]

theorem delayQueryFields_length (s : State) (p : ProgId) : (delayQueryFields s p).length = 28 := by
  simp [delayQueryFields, stackByte_length, latencyBits]

theorem alarmQueryFields_length (s : State) (e : EntryId) : (alarmQueryFields s e).length = 13 := by
  simp [alarmQueryFields]

/-- Settles O12, reply by reply. -/
theorem queryReplyLengths : Obligations.QueryReplyLengths := by
  refine fun s => ⟨fun f => by rw [feedQueryFields_length], fun p => ⟨by rw [progQueryFields_length],
    by rw [loudQueryFields_length], by rw [delayQueryFields_length]⟩, fun e => by rw [alarmQueryFields_length],
    fun body r h => ?ident, fun body r h => ?link, fun body r h => ?pool, fun body r h => ?notices,
    fun body r h => ?scan⟩
  case ident => cases h; rfl
  case link =>
    obtain ⟨clear, -, h⟩ := bind_eq_ok.1 h
    cases h
    rfl
  case pool =>
    cases h
    simp [headPage_length, allProgs]
  case notices =>
    cases h
    refine ⟨min (contField 1 8 (byteAt body 0)).stored.toNat s.notices.length, ?_, Nat.min_le_right _ _, ?_⟩
    · exact (Nat.min_le_left _ _).trans (contField_toNat_le 1 8 _)
    · simp [length_flatMap_const record_length]
      omega
  case scan =>
    obtain ⟨e, -, h⟩ := bind_eq_ok.1 h
    cases h
    refine ⟨((allEntries.filter fun d => decide (e ≤ d) && scanLists s d).take 64).length, by simp, ?_⟩
    have listed := length_flatMap_const (l := (allEntries.filter fun d => decide (e ≤ d) && scanLists s d).take 64)
      (f := listing s) (n := 2) fun _ => rfl
    simp only [List.length_append, byte1_length, nextIdentifier_length, listed]
    omega

/-! ## NOTICES and RESTART (R154, R158) -/

theorem contField_notices (b : Byte) : contField 1 8 (b.toNat : Int) =
    ⟨(min (max b.toNat 1) 8 : Nat), decide (b.toNat ≠ min (max b.toNat 1) 8)⟩ := by
  unfold contField clampInt
  congr 1
  · omega
  · exact decide_eq_decide.2 (by omega)

/-- Settles O13. -/
theorem noticesFetchedAndRestartAsked : Obligations.NoticesFetchedAndRestartAsked := by
  refine fun s m => ⟨fun b h body => ?notices, fun body h => ?restart, fun body reset free broadcast check => ?due⟩
  case notices =>
    dsimp only
    refine (onUnit_deliver_ok (ev := evalNotices) h (by rw [body]; rfl) rfl).trans ?_
    rw [body, byteAt_zero, contField_notices]
    unfold Taken.status
    dsimp only
    rw [Int.toNat_natCast]
    by_cases same : b.toNat = min (max b.toNat 1) 8
    · rw [if_pos same, if_neg (by simp [← same])]
      rfl
    · rw [if_neg same, if_pos (by simpa using same)]
      rfl
  case restart =>
    exact exec_taken (c := .restart m) rfl rfl h (by rw [body]; rfl) rfl
  case due =>
    have heard := isBroadcast_eq_true (s := s) broadcast
    have run : exec (.restart m) s = _ := onUnit_running (f := deliver .restart (evalRestart (isBroadcast m s)) m) reset
    rw [run, deliver_broadcast free heard, heard]
    unfold judge
    rw [body, check]
    rfl

end Sys2Proof.Machine
end

section
/-! PROOFS. Feed ports and converters: what each operation of a feed leaves in its own port, converter and conditions
(`view`), and the judgement of subframes, frames and frame edges that follow from it. -/
namespace Sys2Proof.Machine

/-! ## Judgement and concealment of one channel (R7 to R9) -/

theorem oddOnes_iff (w : BitVec 32) : oddOnes w = true ↔ ((List.range 32).filter fun i => w.getLsbD i).length % 2 = 1 := by
  have fold (l : List Nat) : ∀ odd, l.foldl (fun odd i => odd ^^ w.getLsbD i) odd =
      (odd ^^ decide ((l.filter fun i => w.getLsbD i).length % 2 = 1)) := by
    induction l with
    | nil => simp
    | cons i l ih =>
      intro odd
      rw [List.foldl_cons, ih]
      cases hi : w.getLsbD i
      · simp [hi]
      · have parity : decide ((List.filter (fun i => w.getLsbD i) l).length % 2 = 1) =
            !decide (((List.filter (fun i => w.getLsbD i) l).length + 1) % 2 = 1) := by
          rw [← decide_not]
          exact decide_eq_decide.2 (by omega)
        simp [hi, parity]
  unfold oddOnes
  rw [fold]
  simp

/-- Good subframes taken in a row, with the samples delivered. -/
def Channel.takeRow (r : Channel × List Sample) (y : Sample) : Channel × List Sample :=
  ((r.1.takeGood y).1, r.2 ++ [(r.1.takeGood y).2])

/-- Up to the 63rd good subframe in a row a muted channel delivers zeros and counts (R9). -/
theorem takeRow_muted {c : Channel} (muted : c.muted = true) (xs : List Sample) : ∀ ys, xs.length + c.goodRun ≤ 63 →
    ∃ x, xs.foldl Channel.takeRow (c, ys) =
      ({ c with goodRun := c.goodRun + xs.length, lastGood := x }, ys ++ List.replicate xs.length 0) := by
  induction xs generalizing c with
  | nil => intro ys _; exact ⟨c.lastGood, by simp⟩
  | cons x xs ih =>
    intro ys short
    have short : xs.length + (c.goodRun + 1) ≤ 63 := by simp only [List.length_cons] at short; omega
    have counted : Channel.takeRow (c, ys) x = ({ c with goodRun := c.goodRun + 1, lastGood := x }, ys ++ [0]) := by
      simp [Channel.takeRow, Channel.takeGood, muted, show ¬64 ≤ c.goodRun + 1 by omega]
    obtain ⟨y, rest⟩ := ih (c := { c with goodRun := c.goodRun + 1, lastGood := x }) muted (ys ++ [0]) short
    refine ⟨y, ?_⟩
    rw [List.foldl_cons, counted, rest, List.length_cons, List.replicate_succ]
    simp [Nat.add_assoc, Nat.add_comm 1]

/-- Settles O20: parity by the fold over the bits, and a muted channel by induction on the good subframes in a row. -/
theorem concealmentOfChannel : Obligations.ConcealmentOfChannel := by
  refine ⟨fun q w => ?_, fun c => ⟨fun open_ => ⟨fun x => ?_, fun few => ?_, fun many => ?_⟩, fun muted => ?_, ?_⟩⟩
  · simp [Port.judgedBad, oddOnes_iff]
  · simp [Channel.takeGood, open_]
  · simp [Channel.takeBad, open_, show c.badRun < 4 by omega, satAdd, Config.counterLimit]
  · simp [Channel.takeBad, open_, show ¬c.badRun < 4 by omega, satAdd, Config.counterLimit]
  · simp [Channel.takeBad, muted]
  · intro muted fresh xs x take
    have row : take = Channel.takeRow := rfl
    rw [row]
    constructor
    · intro short
      obtain ⟨y, taken⟩ := takeRow_muted muted xs [] (by omega)
      simp [taken, muted, fresh]
    · intro full
      obtain ⟨y, taken⟩ := takeRow_muted muted xs [] (by omega)
      simp [taken, muted, fresh, full, Channel.takeGood]

/-! ## What one feed holds -/

/-- A condition given the value it has changes nothing. -/
theorem setCond_same {e : EntryId} {v : Bool} {s : State} (h : s.cond e = v) : setCond e v s = s := by
  unfold setCond follow
  rw [if_pos h, handOver_none]

/-- A feed's port, converter and conditions. -/
structure FeedView where
  port : Port
  conv : Converter
  cond : FeedCond → Bool

/-- One condition of the feed takes a value. -/
def FeedView.set (x : FeedView) (k : FeedCond) (v : Bool) : FeedView :=
  { x with cond := fun j => if j = k then v else x.cond j }

theorem FeedView.set_same (x : FeedView) (k : FeedCond) : x.set k (x.cond k) = x := by
  unfold FeedView.set
  refine congrArg (FeedView.mk _ _) (funext fun j => ?_)
  split
  · next h => rw [h]
  · rfl

/-- What a feed holds in a state. -/
def view (s : State) (f : FeedId) : FeedView := ⟨(s.feed f).port, (s.feed f).conv, s.feedCond f⟩

section
variable (f : FeedId) (s : State)

theorem view_of {s t : State} (h : FeedsSame s t) (f : FeedId) : view t f = view s f := by
  unfold view
  rw [h.feed f, funext (h.cond f)]

theorem view_setFeed (x : Feed) : view (s.setFeed f x) f = ⟨x.port, x.conv, s.feedCond f⟩ := by
  unfold view
  rw [State.setFeed_feed_self]
  rfl

theorem view_onPort (g : Port → Port) : view (s.onPort f g) f = { view s f with port := g (s.feed f).port } := by
  rw [State.onPort_eq, view_setFeed]; rfl

theorem view_setConv (c : Converter) : view (s.setFeed f { s.feed f with conv := c }) f = { view s f with conv := c } := by
  rw [view_setFeed]; rfl

theorem view_setFeedCond (k : FeedCond) (v : Bool) : view (setFeedCond f k v s) f = (view s f).set k v := by
  unfold view FeedView.set
  rw [(setFeedCond_effect f k v s).feed f]
  refine congrArg (FeedView.mk _ _) (funext fun j => ?_)
  simp [setFeedCond_feedCond]

theorem view_judgeHealth (g : FeedId) : view (judgeHealth g s) f = view s f := by
  have effect := AlarmEffect.judgeHealth g s
  unfold view
  rw [effect.feed f]
  exact congrArg (FeedView.mk _ _) (funext fun j => effect.cond _ fun p => feedEntry_ne_progEntry f j p .noSource)

theorem view_changeConverter (c : Converter) :
    view (changeConverter f c s) f = FeedView.set { view s f with conv := c } .srcUnlocked (c.state == .track) := by
  rw [view_of (changeConverter_feedsSame f c s), view_setFeedCond, view_setConv]

/-- What a feed holds once an input frame has reached its converter. -/
def FeedView.takeFrame (x : FeedView) (fr : InFrame) : FeedView :=
  FeedView.set { x with conv := (x.conv.takeFrame fr).1 } .srcSlip (x.cond .srcSlip || (x.conv.takeFrame fr).2)

theorem view_handFrame (fr : InFrame) : view (handFrame f fr s) f = (view s f).takeFrame fr := by
  unfold handFrame keepConverter FeedView.takeFrame
  dsimp only
  have conv : (view s f).conv = (s.feed f).conv := rfl
  rw [conv]
  cases ((s.feed f).conv.takeFrame fr).2
  · rw [Bool.or_false]
    exact (view_setConv f s _).trans (FeedView.set_same { view s f with conv := _ } .srcSlip).symm
  · rw [Bool.or_true, if_pos rfl, view_setFeedCond, view_setConv]

/-- What a feed holds once its subframe A has been judged and acted on (R7 to R10). -/
def FeedView.takeA (x : FeedView) (w : Option (BitVec 32)) : FeedView :=
  let r := x.port.chA.take x.port w
  FeedView.set { x with port := { x.port with chA := r.1, frame := .gotA r.2 } } .feedErrors
    (r.1.muted || x.port.chB.muted)

/-- What a feed holds once its subframe B has been judged and acted on, and the frame handed over (R2, R7 to R10). -/
def FeedView.takeB (x : FeedView) (a : Sample) (w : Option (BitVec 32)) : FeedView :=
  let r := x.port.chB.take x.port w
  (FeedView.set { x with port := { x.port with chB := r.1, frame := .handed } } .feedErrors
    (x.port.chA.muted || r.1.muted)).takeFrame ⟨a, r.2⟩

theorem view_takeSubframeA (w : Option (BitVec 32)) : view (takeSubframeA f w s) f = (view s f).takeA w := by
  unfold takeSubframeA judgeFeedErrors
  dsimp only
  rw [view_setFeedCond, view_onPort]
  simp only [State.onPort_eq, State.setFeed_feed_self]
  rfl

theorem view_takeSubframeB (a : Sample) (w : Option (BitVec 32)) :
    view (takeSubframeB f a w s) f = (view s f).takeB a w := by
  unfold takeSubframeB judgeFeedErrors
  dsimp only
  rw [view_handFrame, view_setFeedCond, view_onPort]
  simp only [State.onPort_eq, State.setFeed_feed_self]
  rfl

end

theorem view_judgePins (s : State) (f : FeedId) : view (judgePins s) f = view s f := rfl

/-- The work of a feed leaves every other port and converter. -/
theorem FeedEffect.others {f : FeedId} {s t : State} (h : FeedEffect f s t) :
    ∀ g, g ≠ f → ((judgePins t).feed g).port = (s.feed g).port ∧ ((judgePins t).feed g).conv = (s.feed g).conv :=
  fun g hg => ⟨h.port g hg, h.conv g hg⟩

/-- The work of a feed leaves of every program what `RunsKept` names. -/
theorem FeedEffect.runsKept {f : FeedId} {s t : State} (h : FeedEffect f s t) : RunsKept s (judgePins t) := fun p => by
  rw [judgePins_prog]
  obtain ⟨rest, delay⟩ := h.prog p
  refine ⟨?_, ?_, ?_, ?_, ?_, ?_, ?_, ?_, ?_⟩
  case refine_8 => rw [delay]
  case refine_9 => rw [delay]
  all_goals rw [rest]

/-! ## Subframes and frames (O21) -/

section
variable {s : State} {f : FeedId}

/-- Both sides of a view, read back. -/
theorem port_of_view {t : State} {x : FeedView} (h : view t f = x) : (t.feed f).port = x.port := congrArg FeedView.port h

theorem conv_of_view {t : State} {x : FeedView} (h : view t f = x) : (t.feed f).conv = x.conv := congrArg FeedView.conv h

theorem feedCond_of_view {t : State} {x : FeedView} (h : view t f = x) (k : FeedCond) : t.feedCond f k = x.cond k :=
  congrFun (congrArg FeedView.cond h) k

theorem exec_subframe_opened (live : s.inReset = false) (on : (s.feed f).port.enable = true)
    (frame : (s.feed f).port.frame = .opened) (w : BitVec 32) :
    exec (.subframeJudged f w) s = .next (judgePins (takeSubframeA f (some w) s)) := by
  refine (onUnit_running live).trans ?_
  simp [subframeReceived, on, frame]

theorem exec_subframe_gotA (live : s.inReset = false) (on : (s.feed f).port.enable = true) {a : Sample}
    (frame : (s.feed f).port.frame = .gotA a) (w : BitVec 32) :
    exec (.subframeJudged f w) s = .next (judgePins (takeSubframeB f a (some w) s)) := by
  refine (onUnit_running live).trans ?_
  simp [subframeReceived, on, frame]

theorem exec_subframe_ignored (live : s.inReset = false)
    (h : (s.feed f).port.enable = false ∨ (s.feed f).port.frame = .none ∨ (s.feed f).port.frame = .handed) (w : BitVec 32) :
    exec (.subframeJudged f w) s = .next (judgePins s) := by
  refine (onUnit_running live).trans ?_
  obtain off | none | handed := h
  · simp [subframeReceived, off]
  · simp [subframeReceived, none]
  · simp [subframeReceived, handed]

end

namespace Converter

/-- One frame consumed from the head of the FIFO (R32). -/
def consumeHead (c : Converter) (fr : InFrame) (rest : List InFrame) : Converter :=
  { c with fifo := rest, lastConsumed := some fr, history := (fr :: c.history).take (Config.historyExtra + 1) }

theorem consume_cons {c : Converter} {fr : InFrame} {rest : List InFrame} (h : c.fifo = fr :: rest) (k : Nat) :
    c.consume (k + 1) = (c.consumeHead fr rest).consume k := by
  rw [consume, h]
  rfl

theorem take_append_take {α : Type} (n : Nat) (l h : List α) : (l ++ h.take n).take n = (l ++ h).take n := by
  simp [List.take_append, List.take_take]

/-- The frames a converter consumes where its FIFO holds them (R32). -/
theorem consume_held (k : Nat) (c : Converter) (held : k + 1 ≤ c.fifo.length) : c.consume (k + 1) =
    ({ c with
        fifo := c.fifo.drop (k + 1), lastConsumed := (c.fifo.take (k + 1)).getLast?
        history := ((c.fifo.take (k + 1)).reverse ++ c.history).take (Config.historyExtra + 1) }, false) := by
  induction k generalizing c with
  | zero =>
    match h : c.fifo, held with
    | fr :: rest, _ => rw [consume_cons h]; rfl
  | succ k ih =>
    match h : c.fifo, held with
    | fr :: rest, held =>
      have held : k + 1 ≤ (c.consumeHead fr rest).fifo.length := by simpa [consumeHead] using held
      have last : (rest.take (k + 1)).getLast? = ((fr :: rest).take (k + 1 + 1)).getLast? := by
        have some : rest.take (k + 1) ≠ [] := by
          rw [← List.length_pos_iff, List.length_take]
          simp only [consumeHead] at held
          omega
        rw [List.take_succ_cons, List.getLast?_cons_of_ne_nil some]
      rw [consume_cons h, ih _ held]
      simp only [consumeHead, last, take_append_take]
      simp

/-- Where the FIFO holds fewer frames than it is to give, the converter consumes those, repeats the last, enters the
refill wait and counts a slip (R34, R36). -/
theorem consume_short (l : List InFrame) (c : Converter) (h : c.fifo = l) (k : Nat) (short : l.length < k) :
    c.consume k =
      ({ c with
          fifo := [], lastConsumed := l.getLast?.or c.lastConsumed, refillWait := true
          slipCount := min (c.slipCount + 1) 65535
          history := ((l.getLast?.or c.lastConsumed).getD {} :: (l.reverse ++ c.history)).take
            (Config.historyExtra + 1) }, true) := by
  obtain ⟨k, rfl⟩ := Nat.exists_eq_add_one_of_ne_zero (Nat.ne_of_gt (Nat.zero_lt_of_lt short))
  induction l generalizing c k with
  | nil =>
    simp [consume, remember, countSlip, satAdd, Config.counterLimit, h]
  | cons fr rest ih =>
    obtain ⟨k, rfl⟩ := Nat.exists_eq_add_one_of_ne_zero (n := k) (by simp at short; omega)
    rw [consume_cons h, ih (c.consumeHead fr rest) rfl k (by simpa using short)]
    have last : rest.getLast?.or (some fr) = (fr :: rest).getLast?.or c.lastConsumed := by
      rw [List.getLast?_cons]
      cases rest.getLast? <;> rfl
    simp only [consumeHead, last]
    simp only [← List.cons_append, take_append_take]
    simp

theorem advance_running {c : Converter} (on : c.state = .track ∨ c.state = .locked) (flowing : c.refillWait = false) :
    c.advance = ({ c with phase := (c.phase + c.stepUsed) % 2 ^ 20 } : Converter).consume
      ((c.phase + c.stepUsed) / 2 ^ 20) := by
  obtain on | on := on <;> simp [advance, on, flowing]

/-- What a converter makes of an input frame, by its state and its fill (R23, R33, R35). -/
theorem takeFrame_running {c : Converter} (on : c.state = .track ∨ c.state = .locked) (fr : InFrame) :
    (c.fifo.length < 32 → c.takeFrame fr =
      ({ c with fifo := c.fifo ++ [fr], refillWait := c.refillWait && decide (c.fifo.length + 1 < 16) }, false)) ∧
    (c.fifo.length = 32 → c.takeFrame fr =
      ({ c with fifo := c.fifo.drop 16, slipCount := min (c.slipCount + 1) 65535 }, true)) := by
  have taken : c.takeFrame fr = if 32 ≤ c.fill then (({ c with fifo := c.fifo.drop 16 } : Converter).countSlip, true)
      else ({ c with fifo := c.fifo ++ [fr], refillWait := c.refillWait && decide (c.fill + 1 < 16) }, false) := by
    obtain on | on := on <;> simp [takeFrame, on]
  rw [taken]
  exact ⟨fun room => if_neg (by unfold fill; omega), fun full => if_pos (by unfold fill; omega)⟩

end Converter

/-- Settles O21: the two subframes by what they leave in the view of their feed, the converter by its cases. -/
theorem subframesMakeFrame : Obligations.SubframesMakeFrame := by
  constructor
  · intro s f w live q
    refine ⟨fun on frame => ?_, fun a on frame => ?_, fun h => exec_subframe_ignored live h w⟩
    · have held := (view_judgePins _ f).trans (view_takeSubframeA f s (some w))
      have effect := FeedEffect.takeSubframeA f (some w) s
      refine ⟨_, exec_subframe_opened live on frame w, port_of_view held, conv_of_view held, ?_, effect.runsKept,
        effect.others⟩
      have errors := feedCond_of_view held .feedErrors
      exact Bool.eq_iff_iff.1 errors |>.trans (by simp [FeedView.takeA, FeedView.set, view, q])
    · have held := (view_judgePins _ f).trans (view_takeSubframeB f s a (some w))
      have effect := FeedEffect.takeSubframeB f a (some w) s
      refine ⟨_, exec_subframe_gotA live on frame w, port_of_view held, conv_of_view held, ?_, ?_, effect.runsKept,
        effect.others⟩
      · exact (feedCond_of_view held .srcSlip).trans (by
          simp [FeedView.takeB, FeedView.takeFrame, FeedView.set, view, q])
      · have errors := feedCond_of_view held .feedErrors
        exact Bool.eq_iff_iff.1 errors |>.trans (by
          simp [FeedView.takeB, FeedView.takeFrame, FeedView.set, view, q])
  · refine fun c fr => ⟨?_, fun on => c.takeFrame_running on fr, ?_, fun on flowing => ?_⟩
    · rintro (idle | search)
      · simp [Converter.takeFrame, idle]
      · simp [Converter.takeFrame, search]
    · rintro (idle | search | wait)
      · simp [Converter.advance, idle]
      · simp [Converter.advance, search]
      · cases h : c.state <;> simp [Converter.advance, h, wait]
    · intro k keep last moved
      rw [Converter.advance_running on flowing]
      refine ⟨fun none => ?_, fun some held => ?_, fun short => ?_⟩
      · rw [show (c.phase + c.stepUsed) / 2 ^ 20 = 0 from none]
        rfl
      · obtain ⟨n, hn⟩ := Nat.exists_eq_add_one_of_ne_zero (Nat.ne_of_gt some)
        rw [show (c.phase + c.stepUsed) / 2 ^ 20 = n + 1 from hn, hn]
        exact moved.consume_held n (hn ▸ held)
      · exact moved.consume_short c.fifo rfl k short

/-! ## Frame edges (O16) -/

/-- A frame is cut short by a frame edge: the channel of subframe A and the sample it delivers (R2). -/
def CutShort (q : Port) (chA : Channel) (a : Sample) : Prop :=
  q.frame = .opened ∧ (chA, a) = q.chA.takeBad ∨ q.frame = .gotA a ∧ chA = q.chA

/-- What a feed holds once the frame cut short has been handed over (R2). -/
def FeedView.handed (x : FeedView) (chA : Channel) (a : Sample) : FeedView :=
  (FeedView.set { x with port := { x.port with chA := chA, chB := x.port.chB.takeBad.1, frame := .handed } }
    .feedErrors (chA.muted || x.port.chB.takeBad.1.muted)).takeFrame ⟨a, x.port.chB.takeBad.2⟩

/-- What a feed holds once its edge has opened a frame (R1, R12). -/
def FeedView.opened (x : FeedView) : FeedView :=
  { x with
    port := { x.port with lossTimer := some 0, lossTimeout := lossTimeoutOf x.conv.cls, frame := .opened } }

section
variable (f : FeedId) (s : State)

theorem endFrame_none (h : (s.feed f).port.frame = .none ∨ (s.feed f).port.frame = .handed) : endFrame f s = s := by
  unfold endFrame
  obtain h | h := h <;> rw [h]

theorem view_endFrame {chA : Channel} {a : Sample} (h : CutShort (s.feed f).port chA a) :
    view (endFrame f s) f = (view s f).handed chA a := by
  unfold endFrame
  obtain ⟨frame, bad⟩ | ⟨frame, rfl⟩ := h
  · have first := view_takeSubframeA f s none
    have taken : ((s.feed f).port.chA.take (s.feed f).port none) = (chA, a) := bad.symm
    have got : ((takeSubframeA f none s).feed f).port.frame = .gotA a := by
      rw [port_of_view first]
      exact congrArg (FrameProgress.gotA ·.2) taken
    simp only [frame, got]
    rw [view_takeSubframeB, first]
    have taken : ((view s f).port.chA.take (view s f).port none) = (chA, a) := taken
    unfold FeedView.takeB FeedView.takeA FeedView.handed
    dsimp only
    rw [taken]
    refine congrArg (FeedView.takeFrame · _) ?_
    refine congrArg (FeedView.mk _ _) (funext fun j => ?_)
    by_cases hj : j = .feedErrors <;> simp [FeedView.set, hj, Channel.take]
  · simp only [frame]
    rw [view_takeSubframeB]
    rfl

theorem view_restart :
    view ((restartLossTimer f s).onPort f fun q => { q with frame := .opened }) f = (view s f).opened := by
  unfold restartLossTimer
  rw [view_onPort, view_onPort]
  simp [FeedView.opened, view]

/-- A frame edge inside a span counts (R15). -/
theorem advanceSpan_counts (spanOpen : (s.feed f).port.spanOpen = true) (short : (s.feed f).port.edgeCount < 63) :
    advanceSpan f s = s.onPort f fun q => { q with edgeCount := q.edgeCount + 1 } := by
  unfold advanceSpan
  simp [spanOpen, show ¬64 ≤ (s.feed f).port.edgeCount + 1 by omega]

/-- A frame edge with no span open is edge 0 of one (R15). -/
theorem advanceSpan_begins (spanOpen : (s.feed f).port.spanOpen = false) :
    advanceSpan f s = s.onPort f fun q =>
      { q with spanOpen := true, edgeCount := 0, spanCounter := 0, overflowMark := false } := by
  unfold advanceSpan
  simp [spanOpen]

/-- The 64th edge yields the span (R15). -/
theorem advanceSpan_yields (spanOpen : (s.feed f).port.spanOpen = true) (full : (s.feed f).port.edgeCount = 63) :
    advanceSpan f s = yieldSpan f s := by
  unfold advanceSpan
  simp [spanOpen, full]

end

section
variable {s : State} {f : FeedId} {first : Bool} (live : s.inReset = false) (on : (s.feed f).port.enable = true)
include live on

omit live in
/-- A frame edge on an enabled feed, in the order its operand gives to the frame and the span. -/
theorem frameEdge_eq (first : Bool) : frameEdge f first s =
    (restartLossTimer f (if first then advanceSpan f (endFrame f (endLoss f s))
      else endFrame f (advanceSpan f (endLoss f s)))).onPort f fun q => { q with frame := .opened } := by
  unfold frameEdge
  simp only [on, if_true]

omit on in
theorem exec_frameEdge (first : Bool) : exec (.frameEdge f first) s = .next (judgePins (frameEdge f first s)) :=
  onUnit_running live

/-- With no frame cut short and no loss to end, a frame edge advances the span and opens a frame. -/
theorem exec_frameEdge_quiet (lost : s.feedCond f .feedLost = false)
    (frame : (s.feed f).port.frame = .none ∨ (s.feed f).port.frame = .handed) {g : Port → Port}
    (span : advanceSpan f s = s.onPort f g) (kept : ∀ q, (g q).frame = q.frame) : exec (.frameEdge f first) s =
    .next (judgePins (s.setFeed f { s.feed f with port :=
      { g (s.feed f).port with
        frame := .opened, lossTimer := some 0, lossTimeout := lossTimeoutOf (s.feed f).conv.cls } })) := by
  have none : endLoss f s = s := setCond_same lost
  have still : endFrame f (s.onPort f g) = s.onPort f g := endFrame_none f _ (by simpa [kept] using frame)
  rw [exec_frameEdge live, frameEdge_eq on, none, endFrame_none f s frame, span, still, ite_self]
  simp [restartLossTimer]

end

/-- What a feed holds once an edge inside a span has been counted (R15). -/
def FeedView.counted (x : FeedView) : FeedView := { x with port := { x.port with edgeCount := x.port.edgeCount + 1 } }

/-- What a feed holds once a span has begun with edge 0 (R15). -/
def FeedView.begun (x : FeedView) : FeedView :=
  { x with port := { x.port with spanOpen := true, edgeCount := 0, spanCounter := 0, overflowMark := false } }

theorem view_endLoss (f : FeedId) (s : State) : view (endLoss f s) f = (view s f).set .feedLost false :=
  view_setFeedCond ..

theorem view_counts {f : FeedId} {s : State} (spanOpen : (s.feed f).port.spanOpen = true)
    (short : (s.feed f).port.edgeCount < 63) : view (advanceSpan f s) f = (view s f).counted := by
  rw [advanceSpan_counts f s spanOpen short, view_onPort]
  rfl

section
variable {s : State} {f : FeedId} (on : (s.feed f).port.enable = true)
include on

/-- A frame edge that counts in its span and hands over a frame cut short (R2, R15). -/
theorem view_frameEdge_cut {chA : Channel} {a : Sample} (cut : CutShort (s.feed f).port chA a)
    (spanOpen : (s.feed f).port.spanOpen = true) (short : (s.feed f).port.edgeCount < 63) (first : Bool) :
    view (frameEdge f first s) f = (((view s f).set .feedLost false).handed chA a).counted.opened := by
  have ended := view_endLoss f s
  have port : ((endLoss f s).feed f).port = (s.feed f).port := port_of_view ended
  have handed : view (endFrame f (endLoss f s)) f = ((view s f).set .feedLost false).handed chA a := by
    rw [view_endFrame f (endLoss f s) (port ▸ cut), ended]
  have counted : view (advanceSpan f (endLoss f s)) f = ((view s f).set .feedLost false).counted := by
    rw [view_counts (port ▸ spanOpen) (port ▸ short), ended]
  rw [frameEdge_eq on, view_restart]
  cases first
  · have cut : CutShort ((advanceSpan f (endLoss f s)).feed f).port chA a := by
      rw [port_of_view counted]; exact cut
    simp only [Bool.false_eq_true, if_false]
    rw [view_endFrame _ _ cut, counted]
    rfl
  · have span : ((endFrame f (endLoss f s)).feed f).port.spanOpen = true ∧
        ((endFrame f (endLoss f s)).feed f).port.edgeCount < 63 := by
      rw [port_of_view handed]; exact ⟨spanOpen, short⟩
    simp only [if_true]
    rw [view_counts span.1 span.2, handed]

/-- A frame edge that begins a span, with no frame to hand over (R14, R15). -/
theorem view_frameEdge_begun (frame : (s.feed f).port.frame = .none) (spanOpen : (s.feed f).port.spanOpen = false)
    (first : Bool) : view (frameEdge f first s) f = ((view s f).set .feedLost false).begun.opened := by
  have ended := view_endLoss f s
  have port : ((endLoss f s).feed f).port = (s.feed f).port := port_of_view ended
  have begun : advanceSpan f (endLoss f s) = _ := advanceSpan_begins f (endLoss f s) (port ▸ spanOpen)
  have still : endFrame f (endLoss f s) = endLoss f s := endFrame_none f _ (.inl (port ▸ frame))
  have still' : endFrame f (advanceSpan f (endLoss f s)) = advanceSpan f (endLoss f s) :=
    endFrame_none f _ (.inl (by rw [begun]; simpa [port] using frame))
  rw [frameEdge_eq on, view_restart, still, still', ite_self, begun, view_onPort, ended, port]
  rfl

end

theorem FeedView.takeFrame_cls (x : FeedView) (fr : InFrame) : (x.takeFrame fr).conv.cls = x.conv.cls := by
  show (x.conv.takeFrame fr).1.cls = x.conv.cls
  rw [Converter.takeFrame_kept]

/-- Settles O16: the exact states where nothing else is due, and the view of the feed where a frame is handed over or a
loss ends. -/
theorem frameEdgeOpensFrame : Obligations.FrameEdgeOpensFrame := by
  refine ⟨rfl, rfl, rfl, rfl, rfl, rfl, ?_⟩
  intro s f first live on q opened edge0
  refine ⟨fun lost frame spanOpen short => ?_, fun lost frame spanOpen => ?_, fun chA a cut spanOpen short => ?_,
    fun lost frame spanOpen cls => ?_⟩
  · exact exec_frameEdge_quiet live on lost frame (advanceSpan_counts f s spanOpen short) fun _ => rfl
  · exact exec_frameEdge_quiet live on lost frame (advanceSpan_begins f s spanOpen) fun _ => rfl
  · have held := (view_judgePins _ f).trans (view_frameEdge_cut on cut spanOpen short first)
    have effect := FeedEffect.frameEdge f first s
    refine ⟨_, exec_frameEdge live first, ?_, ?_, conv_of_view held, ?_, effect.others, effect.runsKept,
      effect.quiet.store⟩
    · exact (feedCond_of_view held .feedLost).trans (by
        simp [FeedView.opened, FeedView.counted, FeedView.handed, FeedView.takeFrame, FeedView.set])
    · rw [port_of_view held]
      unfold FeedView.opened FeedView.counted FeedView.handed
      simp only [FeedView.takeFrame_cls]
      rfl
    · exact Bool.eq_iff_iff.1 (feedCond_of_view held .feedErrors) |>.trans (by
        simp [FeedView.opened, FeedView.counted, FeedView.handed, FeedView.takeFrame, FeedView.set, view, q])
  · have held := (view_judgePins _ f).trans (view_frameEdge_begun on frame spanOpen first)
    have effect := FeedEffect.frameEdge f first s
    have port : lossTimeoutOf (s.feed f).conv.cls = 3072 := by rw [cls]; rfl
    refine ⟨_, exec_frameEdge live first, feedCond_of_view held .feedLost, ?_, conv_of_view held,
      feedCond_of_view held .rateUnknown, feedCond_of_view held .feedErrors, effect.others, effect.runsKept,
      effect.quiet.store⟩
    rw [port_of_view held, ← port]
    rfl

/-! ## Settings of a port, and the house reference (O14, O23) -/

/-- Settles O14: enable stays, so the four settings are stored and no more is done. -/
theorem feedConfigKeepsReception : Obligations.FeedConfigKeepsReception := by
  intro s m f ex par val h body
  rw [body]
  refine exec_taken (c := .feedConfig m) (t := configurePort f (s.feed f).port.enable ex par val s) rfl rfl h
    (by rw [body]; rfl) ?_
  have stored := storeFeedConfig_eq f (s.feed f).port.enable ex par val s
  rw [if_pos rfl] at stored
  simp only [body, evalKind, evalFeedConfig, byteAt_zero, byteAt_succ, feedIndex_val, onOffOfCode_val, classOfCode_val,
    enumField, ← stored]
  rfl

/-- HOUSE_REF_LOST hands nothing over. -/
theorem setHouseRef_eq (v : Bool) (s : State) : setCond houseRefEntry v s = (follow houseRefEntry v s).1 := by
  have unit : entrySource houseRefEntry = .unit := by decide
  unfold setCond handOver
  rw [unit]
  split
  · cases (follow houseRefEntry v s).2 <;> rfl
  · rfl

/-- What HOUSE_REF_LOST leaves when it takes a value. -/
theorem setHouseRef_kept (v : Bool) (s : State) : let t := setCond houseRefEntry v s
    t.monitor = s.monitor ∧ t.cond houseRefEntry = v ∧ t.feeds = s.feeds ∧ t.progs = s.progs ∧ t.tick = s.tick ∧
      t.sampleInBlock = s.sampleInBlock ∧ t.blockCounter = s.blockCounter ∧ OtherEntriesKept houseRefEntry s t := by
  dsimp only
  rw [setHouseRef_eq]
  have effect := EntryEffect.follow houseRefEntry v s
  exact ⟨effect.quiet.monitor, (follow_cond ..).trans (if_pos rfl), effect.feeds, effect.progs, effect.quiet.tick,
    effect.quiet.sampleInBlock, effect.quiet.blockCounter, effect.entry⟩

/-- Settles O23: the entry of the house reference alone follows its condition. -/
theorem houseReference : Obligations.HouseReference := by
  refine fun s live => ⟨⟨_, onUnit_running live, setHouseRef_kept false _⟩, fun n present timer late =>
    ⟨judgePins (loseRef s), ?_, setHouseRef_kept true _⟩⟩
  refine (onUnit_running live).trans ?_
  simp [refLossIsDue, present, timer, late]

end Sys2Proof.Machine
end

section
/-! PROOFS. Delay targets moved and notices produced: the record a recomputation leaves (`DelayFollows`), what a change
of a converter leaves of every program's delay, and a notice that stands behind those that waited (`Reported`). -/
namespace Sys2Proof.Machine

/-! ## Notices -/

/-- A notice produced among others joins the queue or the missed set (R153). -/
theorem Reported.of {k : NoticeKind} {src : Source} {d : List Byte} {s u t : State} (before : Grows s u)
    (counter : u.blockCounter = s.blockCounter) (after : Grows (pushNotice k src d u) t) : Reported k src d s t := by
  obtain ⟨waited, waits⟩ := before.notices
  obtain ⟨later, joins⟩ := after.notices
  by_cases room : u.notices.length < Config.queueLimit
  · have pushed : (pushNotice k src d u).notices = u.notices ++ [⟨k, src, padTo 6 0 d, u.blockCounter⟩] := by
      unfold pushNotice; rw [if_pos room]
    rw [pushed, ← waits, counter] at joins
    refine .inl ⟨?_, ?_⟩
    · rw [← joins]; simp
    · rw [← joins]; simp
  · have pushed : pushNotice k src d u = { u with missed := u.missed ||| (1#32 <<< src.code) } := by
      unfold pushNotice; rw [if_neg room]
    have long : 32 ≤ u.notices.length := Nat.le_of_not_lt room
    refine .inr ⟨?_, after.missed _ ?_⟩
    · rw [← joins, pushed, List.length_append]
      exact long.trans (Nat.le_add_right _ _)
    · rw [pushed, BitVec.getLsbD_or, getLsbD_one_shiftLeft src.code_lt src.code_lt]
      simp

/-! ## The record a recomputation leaves (R122, R124, R125) -/

theorem DelayRec.distance_eq_gap (d : DelayRec) : d.distance = ((d.dtgt : Int) - d.dcur).natAbs := by
  unfold DelayRec.distance; omega

/-- A record goes on as it was under its new target (R124, R125). -/
def Program.GoesOn (bound : Int) (g : Program) (target : Nat) : Prop :=
  g.state ≠ .running ∨ g.delay.op = .cutOut ∨ g.delay.op = .cutIn ∨
    ¬bound.toNat < g.delay.dcur ∧ target = g.delay.dtgt ∨
    ¬bound.toNat < g.delay.dcur ∧ g.delay.op = .slew ∧
      (g.aimed target bound.toNat).delay.distance ≤ g.delay.slewLimit

/-- A record that goes on, or on which an operation is chosen, follows its target. -/
theorem DelayFollows.of {bound : Int} {g h : Program} {target : Nat} (dtgt : h.delay.dtgt = target)
    (on : g.GoesOn bound target → h.delay = (g.aimed target bound.toNat).delay ∧ h.outDir = g.outDir)
    (chosen : ¬g.GoesOn bound target →
      h.delay = (g.aimed target bound.toNat).chooseOp.delay ∧ h.outDir = (g.aimed target bound.toNat).chooseOp.outDir) :
    DelayFollows bound g h := by
  subst dtgt
  have goes : g.GoesOn bound h.delay.dtgt ↔ (g.state ≠ .running ∨ g.delay.op = .cutOut ∨ g.delay.op = .cutIn ∨
      ¬bound.toNat < g.delay.dcur ∧ h.delay.dtgt = g.delay.dtgt ∨ ¬bound.toNat < g.delay.dcur ∧ g.delay.op = .slew ∧
        ((h.delay.dtgt : Int) - (min g.delay.dcur bound.toNat : Nat)).natAbs ≤ g.delay.slewLimit) := by
    unfold Program.GoesOn; rw [DelayRec.distance_eq_gap]; rfl
  unfold DelayFollows
  dsimp only
  rw [← goes]
  have gap : (g.aimed h.delay.dtgt bound.toNat).delay.distance =
    ((h.delay.dtgt : Int) - (min g.delay.dcur bound.toNat : Nat)).natAbs := DelayRec.distance_eq_gap _
  have limit : (g.aimed h.delay.dtgt bound.toNat).delay.slewLimit = g.delay.slewLimit := rfl
  unfold Program.chooseOp at chosen
  rw [gap, limit] at chosen
  refine ⟨on, fun stop zero => ?_, fun stop some short => ?_, fun stop long => ?_⟩
  · obtain ⟨delay, dir⟩ := chosen stop
    rw [if_pos zero] at delay dir
    exact ⟨delay, dir⟩
  · obtain ⟨delay, dir⟩ := chosen stop
    rw [if_neg (Nat.ne_of_gt some), if_pos short] at delay dir
    exact ⟨dir, delay⟩
  · obtain ⟨delay, dir⟩ := chosen stop
    rw [if_neg (Nat.ne_of_gt (Nat.zero_lt_of_lt long)), if_neg (Nat.not_le_of_lt long)] at delay dir
    exact ⟨delay, dir⟩

/-- The record that a move of the target leaves, by what is in flight (R122, R124, R125). -/
theorem moved_follows {g h : Program} {target : Nat} {bound : Int}
    (moved : h =
      if !g.running then g.aimed target bound.toNat
      else if bound.toNat < g.delay.dcur then (g.aimed target bound.toNat).afterClamp
      else if target = g.delay.dtgt then g.aimed target bound.toNat
      else (g.aimed target bound.toNat).retarget)
    (dtgt : h.delay.dtgt = target) : DelayFollows bound g h := by
  have op : (g.aimed target bound.toNat).delay.op = g.delay.op := rfl
  have limit : (g.aimed target bound.toNat).delay.slewLimit = g.delay.slewLimit := rfl
  have kept : (g.aimed target bound.toNat).outDir = g.outDir := rfl
  refine .of dtgt (fun on => ?_) fun stop => ?_
  · subst moved
    split
    · exact ⟨rfl, rfl⟩
    next running =>
    have running : g.state = .running := by simpa [Program.running] using running
    split
    · next clamped =>
      have cut : g.delay.op = .cutOut ∨ g.delay.op = .cutIn := by simpa [Program.GoesOn, running, clamped] using on
      obtain cut | cut := cut <;> simp [Program.afterClamp, op, cut, kept]
    · next fits =>
      split
      · exact ⟨rfl, rfl⟩
      · next other =>
        have on : g.delay.op = .cutOut ∨ g.delay.op = .cutIn ∨
            g.delay.op = .slew ∧ (g.aimed target bound.toNat).delay.distance ≤ g.delay.slewLimit := by
          simpa [Program.GoesOn, running, fits, other] using on
        obtain cut | cut | ⟨slew, short⟩ := on
        · simp [Program.retarget, op, cut, kept]
        · simp [Program.retarget, op, cut, kept]
        · simp [Program.retarget, op, slew, limit, short, kept]
  · simp only [Program.GoesOn, not_or, not_and, not_not] at stop
    obtain ⟨running, out, in_, other, far⟩ := stop
    have running : g.running = true := (Program.running_iff g).2 running
    rw [running, if_neg (by decide)] at moved
    subst moved
    cases flight : g.delay.op with
    | cutOut => exact absurd flight out
    | cutIn => exact absurd flight in_
    | none =>
      split
      · simp [Program.afterClamp, op, flight]
      · next fits => rw [if_neg (other fits)]; simp [Program.retarget, op, flight]
    | slew =>
      split
      · simp [Program.afterClamp, op, flight]
      · next fits =>
        have far := far fits flight
        rw [if_neg (other fits)]
        simp only [Program.retarget, op, flight, limit, if_neg far]
        unfold Program.chooseOp
        rw [limit, if_neg far, if_neg (by omega)]
        exact ⟨rfl, rfl⟩

/-- A move of the target acts on the record as its rules say (R122, R124, R125). -/
theorem moveTarget_follows (p : ProgId) (s : State) :
    DelayFollows (ringBound s (s.prog p)) (s.prog p) ((moveTarget p s).prog p) :=
  moved_follows (moveTarget_prog_self p s) (moveTarget_sameAim p s).dtgt

/-! ## Delays that have moved, and delays that stay -/

/-- Between two states the delay of a program has been given the target of the latency equation, and has followed it. -/
def Aimed (p : ProgId) (s t : State) : Prop :=
  (t.prog p).delay.dtgt = delayTargetOf t (t.prog p) ∧ DelayFollows (ringBound t (t.prog p)) (s.prog p) (t.prog p)

/-- Two states agree on a program's state, current set, delay record and output fade. -/
structure SameCourse (p : ProgId) (s t : State) : Prop where
  state : (t.prog p).state = (s.prog p).state
  current : (t.prog p).currentSet = (s.prog p).currentSet
  delay : (t.prog p).delay = (s.prog p).delay
  outDir : (t.prog p).outDir = (s.prog p).outDir

theorem SameCourse.trans {p : ProgId} {s t u : State} (h : SameCourse p s t) (g : SameCourse p t u) : SameCourse p s u :=
  ⟨g.state.trans h.state, g.current.trans h.current, g.delay.trans h.delay, g.outDir.trans h.outDir⟩

theorem SameCourse.active {p : ProgId} {s t : State} (h : SameCourse p s t) : (t.prog p).active = (s.prog p).active := by
  unfold Program.active; rw [h.state]

/-- Two states agree on all that the delay of a program is made of. -/
structure Aligned (p : ProgId) (s t : State) : Prop extends SameCourse p s t where
  cls : ∀ f, (t.feed f).conv.cls = (s.feed f).conv.cls

namespace Aligned
variable {p : ProgId} {s t u : State}

theorem refl (p : ProgId) (s : State) : Aligned p s s := ⟨⟨rfl, rfl, rfl, rfl⟩, fun _ => rfl⟩

theorem trans (h : Aligned p s t) (g : Aligned p t u) : Aligned p s u :=
  ⟨h.toSameCourse.trans g.toSameCourse, fun f => (g.cls f).trans (h.cls f)⟩

theorem equation (h : Aligned p s t) : SameEquation s (s.prog p) t (t.prog p) :=
  ⟨latencies_congr h.current fun x _ => h.cls x.feed, by rw [h.delay], by rw [h.delay]⟩

theorem ofProg (prog : t.prog p = s.prog p) (feeds : t.feeds = s.feeds) : Aligned p s t :=
  ⟨⟨by rw [prog], by rw [prog], by rw [prog], by rw [prog]⟩, fun f => by rw [State.feed_congr feeds]⟩

theorem ofAlarm (h : AlarmEffect s t) : Aligned p s t := by
  have prog := h.prog p
  refine ⟨⟨by rw [prog], ?_, by rw [prog], by rw [prog]⟩, fun f => by rw [h.feed f]⟩
  rw [prog]
  rfl

theorem setFeed {f : FeedId} {x : Feed} (h : Aligned p s t) (cls : x.conv.cls = (t.feed f).conv.cls) :
    Aligned p s (t.setFeed f x) := by
  refine h.trans ⟨⟨rfl, rfl, rfl, rfl⟩, fun g => ?_⟩
  by_cases hg : g = f
  · subst hg; rw [State.setFeed_feed_self, cls]
  · rw [State.setFeed_feed_ne hg]

theorem onPort (f : FeedId) (g : Port → Port) (h : Aligned p s t) : Aligned p s (t.onPort f g) := by
  rw [State.onPort_eq]
  exact h.setFeed rfl

theorem setFeedCond (f : FeedId) (k : FeedCond) (v : Bool) (h : Aligned p s t) : Aligned p s (setFeedCond f k v t) := by
  have bit : Aligned p t (t.setCondBit (feedEntry f k) v) := .ofProg rfl rfl
  exact h.trans (bit.trans (.ofAlarm (setFeedCond_effect f k v t)))

theorem keepConverter {f : FeedId} {r : Converter × Bool} (cls : r.1.cls = (t.feed f).conv.cls) (h : Aligned p s t) :
    Aligned p s (keepConverter f r t) := by
  have kept : Aligned p s (t.setFeed f { t.feed f with conv := r.1 }) := h.setFeed cls
  unfold Machine.keepConverter
  dsimp only
  split
  · exact kept.setFeedCond ..
  · exact kept

theorem takeSubframeA (f : FeedId) (w : Option (BitVec 32)) (h : Aligned p s t) : Aligned p s (takeSubframeA f w t) := by
  unfold Machine.takeSubframeA judgeFeedErrors
  exact (h.onPort f _).setFeedCond ..

theorem takeSubframeB (f : FeedId) (a : Sample) (w : Option (BitVec 32)) (h : Aligned p s t) :
    Aligned p s (takeSubframeB f a w t) := by
  unfold Machine.takeSubframeB judgeFeedErrors handFrame
  exact .keepConverter (by rw [Converter.takeFrame_kept]) ((h.onPort f _).setFeedCond ..)

theorem endFrame (f : FeedId) (h : Aligned p s t) : Aligned p s (endFrame f t) := by
  unfold Machine.endFrame
  split
  · exact h
  · dsimp only
    split
    · exact (h.takeSubframeA ..).takeSubframeB ..
    · exact h.takeSubframeA ..
  · exact h.takeSubframeB ..
  · exact h

/-- A delay that has followed its target has done so between states that agree with these. -/
theorem aimed {v : State} (before : SameCourse p s t) (h : Aimed p t u) (after : Aligned p u v) : Aimed p s v := by
  obtain ⟨dtgt, follows⟩ := h
  refine ⟨by rw [after.delay, after.equation.target, dtgt], ?_⟩
  rw [after.equation.bound]
  unfold DelayFollows at follows ⊢
  rw [after.delay, after.outDir, ← before.delay, ← before.outDir, ← before.state]
  exact follows

end Aligned

theorem moveTarget_dtgt (p : ProgId) (s : State) :
    ((moveTarget p s).prog p).delay.dtgt = delayTargetOf s (s.prog p) := (moveTarget_sameAim p s).dtgt

/-- A recomputation gives a program that runs or stops the target of the latency equation (R118, R122, R124, R125). -/
theorem recomputeDelay_aimed {p : ProgId} {s : State} (active : (s.prog p).active = true) :
    Aimed p s (recomputeDelay p s) := by
  have judged : Aligned p s (judgeLatency p s) := .ofProg (judgeLatency_prog p p s) (ProgEffect.judgeLatency p s).feeds
  have moved : ((judgeLatency p s).prog p).Kept ((moveTarget p (judgeLatency p s)).prog p) :=
    (FeedEffect.moveTarget 0 p _).prog p
  have e := SameEquation.ofKept moved (ProgEffect.moveTarget p _).feeds
  have here : Aimed p (judgeLatency p s) (moveTarget p (judgeLatency p s)) := by
    refine ⟨?_, ?_⟩
    · rw [e.target]; exact moveTarget_dtgt p (judgeLatency p s)
    · rw [e.bound]; exact moveTarget_follows p (judgeLatency p s)
  unfold recomputeDelay
  rw [if_pos active]
  exact Aligned.aimed judged.toSameCourse here (.refl p _)

/-- The delay of a program after a change of a feed's class (R27, R58): it has followed its target where the program
runs or stops and its current set names the feed, and stays otherwise. -/
def ClassFollowed (f : FeedId) (p : ProgId) (s t : State) : Prop :=
  ((s.prog p).active = true → Names (s.prog p).currentSet f → Aimed p s t) ∧
    ((s.prog p).active = false ∨ ¬Names (s.prog p).currentSet f → (t.prog p).delay = (s.prog p).delay)

theorem setNames_iff (l : List SlotSource) (f : FeedId) : setNames l f = true ↔ Names l f := by
  simp [setNames, Names]

theorem classEvent_followed (f : FeedId) (was now : Option RateClass) (p : ProgId) (s : State) :
    ClassFollowed f p s (classEvent f was now s) := by
  have told (q : ProgId) : Aligned q s
      (pushNotice .feedClass (.feed f) (byte1 (classCode was) ++ byte1 (classCode now)) s) := .ofAlarm (.pushNotice ..)
  have apart {q r : ProgId} {u v : State} (effect : ProgEffect r u v) (hq : q ≠ r) : Aligned q u v :=
    .ofProg (effect.prog q hq) effect.feeds
  unfold classEvent
  refine forEach_progs (R := fun u q => Aligned q s u) (P := fun u q => ClassFollowed f q s u)
    (fun q u => ?_) (fun q u still => ?_) (fun effect hq still => still.trans (apart effect hq))
    (fun effect hq done => ?_) told p
  · unfold realign
    split
    · exact .recomputeDelay q u
    · exact .refl q u
  · unfold realign
    rw [still.active, still.current]
    split
    · next h =>
      obtain ⟨on, names⟩ := Bool.and_eq_true_iff.1 h
      have follows := recomputeDelay_aimed (still.active.trans on)
      refine ⟨fun _ _ => Aligned.aimed still.toSameCourse follows (.refl q _), fun other => ?_⟩
      obtain off | apart := other
      · exact absurd (off.symm.trans on) (by decide)
      · exact absurd ((setNames_iff ..).1 names) apart
    · next h =>
      refine ⟨fun on names => absurd (Bool.and_eq_true_iff.2 ⟨on, (setNames_iff ..).2 names⟩) h, fun _ => still.delay⟩
  · obtain ⟨follows, stays⟩ := done
    exact ⟨fun on names => Aligned.aimed ⟨rfl, rfl, rfl, rfl⟩ (follows on names) (apart effect hq),
      fun other => (apart effect hq).delay.trans (stays other)⟩

theorem ClassFollowed.congr {f : FeedId} {p : ProgId} {s t u v : State} (before : SameCourse p s t)
    (h : ClassFollowed f p t u) (after : Aligned p u v) : ClassFollowed f p s v := by
  obtain ⟨follows, stays⟩ := h
  rw [before.active, before.current] at follows stays
  exact ⟨fun on names => Aligned.aimed before (follows on names) after,
    fun other => after.delay.trans ((stays other).trans before.delay)⟩

/-- What a change of a feed's converter leaves of the delays (R27, R58). -/
theorem changeConverter_followed (f : FeedId) (c : Converter) (p : ProgId) (s : State) :
    ((s.feed f).conv.cls ≠ c.cls → ClassFollowed f p s (changeConverter f c s)) ∧
    ((s.feed f).conv.cls = c.cls → Aligned p s (changeConverter f c s)) := by
  have unlocked := (Aligned.refl p (s.setFeed f { s.feed f with conv := c })).setFeedCond f .srcUnlocked (c.state == .track)
  have put : SameCourse p s (s.setFeed f { s.feed f with conv := c }) := ⟨rfl, rfl, rfl, rfl⟩
  unfold changeConverter
  dsimp only
  refine ⟨fun change => ?_, fun same => ?_⟩
  · rw [if_neg change]
    exact .congr (put.trans unlocked.toSameCourse) (classEvent_followed ..) (.refl p _)
  · rw [if_pos same]
    exact ((Aligned.refl p s).setFeed same.symm).trans unlocked

/-! ## The notice of a class -/

/-- A notice produced later, and before more, is produced between the ends (R153). -/
theorem Reported.congr {k : NoticeKind} {src : Source} {d : List Byte} {s t u v : State} (before : Grows s t)
    (counter : t.blockCounter = s.blockCounter) (h : Reported k src d t u) (after : Grows u v) : Reported k src d s v := by
  obtain ⟨waited, waits⟩ := before.notices
  obtain ⟨later, joins⟩ := after.notices
  obtain ⟨kept, mem⟩ | ⟨long, missed⟩ := h
  · obtain ⟨rest, hrest⟩ : t.notices <+: u.notices := List.prefix_iff_eq_take.2 kept.symm
    rw [← hrest, List.drop_left, counter] at mem
    rw [← hrest, ← waits] at joins
    refine .inl ⟨?_, ?_⟩
    · rw [← joins]; simp
    · rw [← joins]
      simp only [List.append_assoc, List.drop_left]
      exact List.mem_append_right _ (List.mem_append_left _ mem)
  · refine .inr ⟨?_, after.missed _ missed⟩
    rw [← joins, List.length_append]
    exact long.trans (Nat.le_add_right _ _)

/-- A change of a held class is announced (R27). -/
theorem changeConverter_reported {f : FeedId} {c : Converter} {s : State} (h : (s.feed f).conv.cls ≠ c.cls) :
    Reported .feedClass (.feed f) [BitVec.ofNat 8 (classCode (s.feed f).conv.cls), BitVec.ofNat 8 (classCode c.cls)] s
      (changeConverter f c s) := by
  have put : AlarmSteps s (s.setFeed f { s.feed f with conv := c }) := AlarmSteps.refl.setFeed f _
  have unlocked := put.setFeedCond f .srcUnlocked (c.state == .track)
  have counter := (FeedEffect.setFeed f s { s.feed f with conv := c }).trans (.setFeedCond f .srcUnlocked (c.state == .track) _)
  unfold changeConverter classEvent
  dsimp only
  rw [if_neg h]
  refine .of unlocked.grows counter.quiet.blockCounter (AlarmSteps.forEach (fun p t g => ?_) allProgs .refl).grows
  unfold realign
  split
  · exact g.recomputeDelay p
  · exact g

end Sys2Proof.Machine
end

section
/-! PROOFS. A feed that yields a span: what the span leaves in the feed, the notice of a class that changes, and the
delays that follow it (O17). -/
namespace Sys2Proof.Machine

/-- What a feed holds once a span has been yielded (R15 to R17, R24 to R26, R37). -/
def FeedView.spanned (x : FeedView) : FeedView :=
  let sp : Span := ⟨x.port.spanCounter, x.port.overflowMark⟩
  let verdict := spanVerdict x.port.expected sp
  let c := x.conv.takeSpan sp.ticks verdict
  let y := FeedView.set
    { x with port := { x.port with lastSpan := some sp, edgeCount := 0, spanCounter := 0, overflowMark := false } }
    .rateUnknown verdict.isNone
  FeedView.set { y with conv := c } .srcUnlocked (c.state == .track)

/-- The converter a span leaves. -/
def FeedView.spanConv (x : FeedView) : Converter :=
  x.conv.takeSpan x.port.spanCounter (spanVerdict x.port.expected ⟨x.port.spanCounter, x.port.overflowMark⟩)

section
variable (f : FeedId) (s : State)

/-- The state in which a span's converter changes (R15, R17). -/
def spanStored : State :=
  let q := (s.feed f).port
  setFeedCond f .rateUnknown (spanVerdict q.expected ⟨q.spanCounter, q.overflowMark⟩).isNone (s.onPort f fun q =>
    { q with
      lastSpan := some ⟨(s.feed f).port.spanCounter, (s.feed f).port.overflowMark⟩, edgeCount := 0, spanCounter := 0
      overflowMark := false })

theorem yieldSpan_eq : yieldSpan f s = changeConverter f (view s f).spanConv (spanStored f s) := by
  have conv : ((spanStored f s).feed f).conv = (s.feed f).conv := by
    unfold spanStored
    dsimp only
    rw [(setFeedCond_effect ..).feed f]
    simp
  unfold yieldSpan FeedView.spanConv
  change changeConverter f (((spanStored f s).feed f).conv.takeSpan _ _) (spanStored f s) = _
  rw [conv]
  rfl

theorem view_yieldSpan : view (yieldSpan f s) f = (view s f).spanned := by
  rw [yieldSpan_eq, view_changeConverter]
  unfold spanStored
  dsimp only
  rw [view_setFeedCond, view_onPort]
  rfl

end

/-! ## What is done beside the span -/

/-- What a frame edge does beside its span: no delay and no class changes, and notices only join the queue. -/
structure Beside (s t : State) : Prop where
  aligned : ∀ p, Aligned p s t
  grows : Grows s t
  counter : t.blockCounter = s.blockCounter

namespace Beside
variable {s t u : State}

theorem trans (h : Beside s t) (g : Beside t u) : Beside s u :=
  ⟨fun p => (h.aligned p).trans (g.aligned p), h.grows.trans g.grows, g.counter.trans h.counter⟩

theorem setFeedCond (f : FeedId) (k : FeedCond) (v : Bool) (s : State) : Beside s (setFeedCond f k v s) :=
  ⟨fun p => (Aligned.refl p s).setFeedCond f k v, (AlarmSteps.refl.setFeedCond f k v).grows,
    (FeedEffect.setFeedCond f k v s).quiet.blockCounter⟩

theorem onPort (f : FeedId) (g : Port → Port) (s : State) : Beside s (s.onPort f g) :=
  ⟨fun p => (Aligned.refl p s).onPort f g, .same rfl rfl, rfl⟩

theorem endFrame (f : FeedId) (s : State) : Beside s (endFrame f s) :=
  ⟨fun p => (Aligned.refl p s).endFrame f, (AlarmSteps.refl.feedSteps FeedSteps.refl.endFrame).grows,
    (FeedEffect.endFrame f s).quiet.blockCounter⟩

theorem opened (f : FeedId) (s : State) :
    Beside s ((restartLossTimer f s).onPort f fun q => { q with frame := .opened }) :=
  (onPort f (fun q => { q with lossTimer := some 0, lossTimeout := lossTimeoutOf (s.feed f).conv.cls }) s).trans
    (onPort f (fun q => { q with frame := .opened }) _)

end Beside

section
variable {f : FeedId} {s a t : State}

theorem spanStored_beside (f : FeedId) (s : State) : Beside s (spanStored f s) := by
  unfold spanStored
  dsimp only
  exact (Beside.onPort f _ s).trans (.setFeedCond f _ _ _)

/-- What a span leaves of notices and delays, whatever is done beside it (R27, R58). -/
theorem span_effects (before : Beside s a) (after : Beside (yieldSpan f a) t) :
    ((t.feed f).conv.cls ≠ (s.feed f).conv.cls →
      Reported .feedClass (.feed f)
        [BitVec.ofNat 8 (classCode (s.feed f).conv.cls), BitVec.ofNat 8 (classCode (t.feed f).conv.cls)] s t ∧
      ∀ p, ClassFollowed f p s t) ∧
    ((t.feed f).conv.cls = (s.feed f).conv.cls → ∀ p, Aligned p s t) := by
  have start := before.trans (spanStored_beside f a)
  have was : ((spanStored f a).feed f).conv.cls = (s.feed f).conv.cls := (start.aligned 0).cls f
  have now : (t.feed f).conv.cls = (view a f).spanConv.cls := by
    rw [(after.aligned 0).cls f, yieldSpan_eq, conv_of_view (view_changeConverter ..)]
    rfl
  rw [yieldSpan_eq] at after
  rw [now]
  refine ⟨fun change => ⟨?_, fun p => ?_⟩, fun same p => ?_⟩
  · have told := changeConverter_reported (f := f) (c := (view a f).spanConv) (s := spanStored f a)
      (was ▸ change.symm)
    rw [was] at told
    exact .congr start.grows start.counter told after.grows
  · have followed := (changeConverter_followed f (view a f).spanConv p (spanStored f a)).1 (was ▸ change.symm)
    exact .congr (start.aligned p).toSameCourse followed (after.aligned p)
  · have still := (changeConverter_followed f (view a f).spanConv p (spanStored f a)).2 (was.trans same.symm)
    exact (start.aligned p).trans (still.trans (after.aligned p))

end

/-- A frame edge either finds no frame to end or cuts one short. -/
theorem cutShort_cases (q : Port) : (q.frame = .none ∨ q.frame = .handed) ∨ ∃ chA a, CutShort q chA a := by
  cases h : q.frame with
  | none => exact .inl (.inl rfl)
  | handed => exact .inl (.inr rfl)
  | opened => exact .inr ⟨_, _, .inl ⟨h, rfl⟩⟩
  | gotA a => exact .inr ⟨_, a, .inr ⟨h, rfl⟩⟩

theorem endFrame_span (f : FeedId) (s : State) : ((endFrame f s).feed f).port.spanOpen = (s.feed f).port.spanOpen ∧
    ((endFrame f s).feed f).port.edgeCount = (s.feed f).port.edgeCount := by
  obtain calm | ⟨chA, a, cut⟩ := cutShort_cases (s.feed f).port
  · rw [endFrame_none f s calm]; exact ⟨rfl, rfl⟩
  · rw [port_of_view (view_endFrame f s cut)]; exact ⟨rfl, rfl⟩

/-- The 64th edge: the span is yielded between what is done before it and what is done after. -/
theorem frameEdge_span {f : FeedId} {s : State} (on : (s.feed f).port.enable = true)
    (spanOpen : (s.feed f).port.spanOpen = true) (full : (s.feed f).port.edgeCount = 63) (first : Bool) :
    ∃ a, Beside s a ∧ Beside (yieldSpan f a) (frameEdge f first s) := by
  have lost : Beside s (endLoss f s) := .setFeedCond f _ _ s
  have port : ((endLoss f s).feed f).port = (s.feed f).port := port_of_view (view_endLoss f s)
  rw [frameEdge_eq on]
  cases first
  · refine ⟨endLoss f s, lost, ?_⟩
    simp only [Bool.false_eq_true, if_false]
    rw [advanceSpan_yields f _ (port ▸ spanOpen) (port ▸ full)]
    exact (Beside.endFrame f _).trans (.opened f _)
  · have kept : ((endFrame f (endLoss f s)).feed f).port.spanOpen = true ∧
        ((endFrame f (endLoss f s)).feed f).port.edgeCount = 63 := by
      rw [(endFrame_span f _).1, (endFrame_span f _).2, port]
      exact ⟨spanOpen, full⟩
    refine ⟨endFrame f (endLoss f s), lost.trans (.endFrame f _), ?_⟩
    simp only [if_true]
    rw [advanceSpan_yields f _ kept.1 kept.2]
    exact .opened f _

/-! ## The view of the 64th edge -/

section
variable {f : FeedId} {s : State} (on : (s.feed f).port.enable = true) (spanOpen : (s.feed f).port.spanOpen = true)
  (full : (s.feed f).port.edgeCount = 63)
include on spanOpen full

theorem view_frameEdge_span (calm : (s.feed f).port.frame = .none ∨ (s.feed f).port.frame = .handed) (first : Bool) :
    view (frameEdge f first s) f = ((view s f).set .feedLost false).spanned.opened := by
  have lost := view_endLoss f s
  have port : ((endLoss f s).feed f).port = (s.feed f).port := port_of_view lost
  have still : endFrame f (endLoss f s) = endLoss f s := endFrame_none f _ (port ▸ calm)
  have span : advanceSpan f (endLoss f s) = yieldSpan f (endLoss f s) :=
    advanceSpan_yields f _ (port ▸ spanOpen) (port ▸ full)
  have spanned : view (yieldSpan f (endLoss f s)) f = ((view s f).set .feedLost false).spanned := by
    rw [view_yieldSpan, lost]
  have still' : endFrame f (yieldSpan f (endLoss f s)) = yieldSpan f (endLoss f s) :=
    endFrame_none f _ (by rw [port_of_view spanned]; exact calm)
  rw [frameEdge_eq on, view_restart, still, span, still', ite_self, spanned]

theorem view_frameEdge_spanCut {chA : Channel} {a : Sample} (cut : CutShort (s.feed f).port chA a) (first : Bool) :
    view (frameEdge f first s) f =
      (if first then (((view s f).set .feedLost false).handed chA a).spanned
        else ((view s f).set .feedLost false).spanned.handed chA a).opened := by
  have lost := view_endLoss f s
  have port : ((endLoss f s).feed f).port = (s.feed f).port := port_of_view lost
  rw [frameEdge_eq on, view_restart]
  cases first
  · have spanned : view (yieldSpan f (endLoss f s)) f = ((view s f).set .feedLost false).spanned := by
      rw [view_yieldSpan, lost]
    have cut : CutShort ((yieldSpan f (endLoss f s)).feed f).port chA a := by
      rw [port_of_view spanned]; exact cut
    simp only [Bool.false_eq_true, if_false]
    rw [advanceSpan_yields f _ (port ▸ spanOpen) (port ▸ full), view_endFrame _ _ cut, spanned]
  · simp only [if_true]
    rw [advanceSpan_yields f _ (by rw [(endFrame_span f _).1, port, spanOpen])
      (by rw [(endFrame_span f _).2, port, full]), view_yieldSpan, view_endFrame _ _ (port ▸ cut), lost]

end

/-- What a span leaves in its feed whether or not a frame was cut short. -/
structure Spanned (x y : FeedView) : Prop where
  lastSpan : y.port.lastSpan = some ⟨x.port.spanCounter, x.port.overflowMark⟩
  edges : y.port.edgeCount = 0 ∧ y.port.spanCounter = 0 ∧ y.port.overflowMark = false
  frame : y.port.frame = .opened ∧ y.port.lossTimer = some 0 ∧ y.port.lossTimeout = lossTimeoutOf y.conv.cls
  unknown : y.cond .rateUnknown = (spanVerdict x.port.expected ⟨x.port.spanCounter, x.port.overflowMark⟩).isNone
  lost : y.cond .feedLost = false
  unlocked : y.cond .srcUnlocked = (y.conv.state == .track)

theorem spanned_calm (x : FeedView) : Spanned x (x.set .feedLost false).spanned.opened := by
  constructor <;> simp [FeedView.spanned, FeedView.opened, FeedView.set]

theorem spanned_first (x : FeedView) (chA : Channel) (a : Sample) :
    Spanned x ((x.set .feedLost false).handed chA a).spanned.opened := by
  constructor <;> simp [FeedView.spanned, FeedView.opened, FeedView.handed, FeedView.takeFrame, FeedView.set]

theorem spanned_last (x : FeedView) (chA : Channel) (a : Sample) :
    Spanned x ((x.set .feedLost false).spanned.handed chA a).opened := by
  have state (c : Converter) (fr : InFrame) : (c.takeFrame fr).1.state = c.state := by rw [Converter.takeFrame_kept]
  constructor <;> simp [FeedView.spanned, FeedView.opened, FeedView.handed, FeedView.takeFrame, FeedView.set, state]

/-- Settles O17: the view of the feed by the frame the edge finds, and the span between what is done beside it. -/
theorem spanYielded : Obligations.SpanYielded := by
  intro s f first live on spanOpen full q sp verdict
  have effect := FeedEffect.frameEdge f first s
  obtain ⟨a, before, after⟩ := frameEdge_span on spanOpen full first
  obtain ⟨change, same⟩ := span_effects before after
  have spanned : Spanned (view s f) (view (frameEdge f first s) f) := by
    obtain calm | ⟨chA, x, cut⟩ := cutShort_cases (s.feed f).port
    · rw [view_frameEdge_span on spanOpen full calm]
      exact spanned_calm _
    · rw [view_frameEdge_spanCut on spanOpen full cut]
      cases first
      · exact spanned_last ..
      · exact spanned_first ..
  obtain ⟨lastSpan, ⟨edges, counter, mark⟩, ⟨frame, timer, timeout⟩, unknown, lost, unlocked⟩ := spanned
  refine ⟨_, exec_frameEdge live first, lastSpan, edges, counter, mark, frame, timer, timeout, fun calm => ?_,
    fun chA x cut => ?_, fun h => (change h).1, fun p => ⟨fun h => ((change h).2 p).1, fun other => ?_⟩, unknown, lost,
    ?_, effect.others, effect.runsKept, effect.quiet.store⟩
  · exact conv_of_view ((view_judgePins _ f).trans (view_frameEdge_span on spanOpen full calm first))
  · have held := (view_judgePins _ f).trans (view_frameEdge_spanCut on spanOpen full cut first)
    rw [port_of_view held, conv_of_view held]
    cases first <;> exact ⟨rfl, rfl, rfl⟩
  · by_cases kept : ((frameEdge f first s).feed f).conv.cls = (s.feed f).conv.cls
    · exact (same kept p).delay
    · refine ((change kept).2 p).2 ?_
      obtain h | h | h := other
      · exact absurd h kept
      · exact .inl h
      · exact .inr h
  · exact Bool.eq_iff_iff.1 unlocked |>.trans (by simp; rfl)

end Sys2Proof.Machine
end

section
/-! PROOFS. Eligibility events and the health of a feed: the swap, the return timer and NO_SOURCE that they leave of
every program (R62, R63, R70, R73, R76). -/
namespace Sys2Proof.Machine

/-! ## What eligibility is made of -/

/-- Two records of a program agree on its state, its stack, its sets and its marks. -/
structure Program.SameRanks (g h : Program) : Prop where
  state : h.state = g.state
  stack : h.stack = g.stack
  sets : h.sets = g.sets
  marks : h.marks = g.marks

namespace Program.SameRanks
variable {g h : Program}

theorem refl (g : Program) : g.SameRanks g := ⟨rfl, rfl, rfl, rfl⟩

theorem trans {i : Program} (k : g.SameRanks h) (l : h.SameRanks i) : g.SameRanks i :=
  ⟨l.state.trans k.state, l.stack.trans k.stack, l.sets.trans k.sets, l.marks.trans k.marks⟩

theorem rank (k : g.SameRanks h) : h.currentRank = g.currentRank := by unfold Program.currentRank; rw [k.stack]

theorem active (k : g.SameRanks h) : h.active = g.active := by unfold Program.active; rw [k.state]

theorem running (k : g.SameRanks h) : h.running = g.running := by unfold Program.running; rw [k.state]

theorem source (k : g.SameRanks h) : g.SameSource h := ⟨k.active, k.rank, k.sets, k.marks⟩

theorem setAt (k : g.SameRanks h) (r : Rank) : h.setAt r = g.setAt r := k.source.setAt r

theorem current (k : g.SameRanks h) : h.currentSet = g.currentSet := by
  unfold Program.currentSet
  rw [k.rank]
  cases g.currentRank with
  | none => rfl
  | some r => simp only [k.setAt]

end Program.SameRanks

/-- Two states agree on the health of every feed. -/
def SameHealth (s t : State) : Prop := ∀ f, (t.feed f).healthy = (s.feed f).healthy

section
variable {s t : State} {g h : Program} (healthy : SameHealth s t) (ranks : g.SameRanks h)
include healthy ranks

theorem eligible_same (r : Rank) : eligible t h r = eligible s g r := eligible_congr ranks.source (fun f _ => healthy f) r

theorem currentEligible_same : currentEligible t h = currentEligible s g :=
  currentEligible_congr ranks.source fun f _ => healthy f

theorem returnEligible_same : returnEligible t h = returnEligible s g := by
  unfold returnEligible
  have rank : h.returnRank = g.returnRank := by unfold Program.returnRank; rw [ranks.stack]
  rw [rank]
  cases g.returnRank with
  | none => rfl
  | some r => exact eligible_same healthy ranks r

theorem noSourceTest_same : noSourceTest t h = noSourceTest s g := noSourceTest_congr ranks.source fun f _ => healthy f

end

/-- The statement NO_SOURCE makes of a program that runs or stops (R76). -/
theorem noSourceTest_iff {s : State} {g : Program} (active : g.active = true) :
    noSourceTest s g = true ↔ currentEligible s g = false ∧ ∀ r, eligible s g r = false := by
  unfold noSourceTest
  rw [active, Bool.true_and, Bool.and_eq_true, Bool.not_eq_true']
  refine and_congr_right fun _ => ?_
  rw [lowestEligible_isNone]

/-! ## An eligibility event of one program (R63, R73, R76) -/

/-- A program's record after an eligibility event that found NO_SOURCE as `was` has it. -/
def Program.eventful (s : State) (was : Bool) (g : Program) : Program :=
  let g1 := if g.running && !returnEligible s g then g.zeroReturn else g
  if was && !noSourceTest s g && g.running && !currentEligible s g then g1.triggered .failover else g1

theorem Program.triggered_swap (g : Program) : (g.triggered .failover).swap = failoverSwap g := by
  unfold Program.triggered failoverSwap Program.startFadeOut
  cases h : g.swap.phase <;> simp

theorem Program.triggered_ranks (g : Program) (c : SwapCause) : g.SameRanks (g.triggered c) := by
  unfold Program.triggered
  cases g.swap.phase <;> exact ⟨rfl, rfl, rfl, rfl⟩

theorem Program.triggered_timer (g : Program) (c : SwapCause) : (g.triggered c).returnTimer = g.returnTimer := by
  unfold Program.triggered
  cases g.swap.phase <;> rfl

section
variable {s : State} {p : ProgId} {g : Program} {was : Bool}

theorem Program.zeroed_ranks (g : Program) (c : Bool) : g.SameRanks (if c then g.zeroReturn else g) := by
  cases c <;> exact ⟨rfl, rfl, rfl, rfl⟩

theorem eventful_ranks : g.SameRanks (g.eventful s was) := by
  unfold Program.eventful
  dsimp only
  split
  · exact (g.zeroed_ranks _).trans (Program.triggered_ranks ..)
  · exact g.zeroed_ranks _

theorem eventful_timer : (g.eventful s was).returnTimer =
    if g.running && !returnEligible s g then 0 else g.returnTimer := by
  unfold Program.eventful
  dsimp only
  split
  · rw [Program.triggered_timer]; split <;> rfl
  · split <;> rfl

theorem eventful_swap : (g.eventful s was).swap =
    if was && !noSourceTest s g && g.running && !currentEligible s g then failoverSwap g else g.swap := by
  unfold Program.eventful
  dsimp only
  split
  · rw [Program.triggered_swap]
    split <;> rfl
  · split <;> rfl

theorem judgeNoSource_prog (p q : ProgId) (s : State) : (judgeNoSource p s).prog q = s.prog q := follow_prog ..

theorem judgeNoSource_feeds (p : ProgId) (s : State) : (judgeNoSource p s).feeds = s.feeds := (ProgEffect.judgeNoSource p s).feeds

/-- An eligibility event of a program that runs or stops, in full. -/
theorem eligibilityEvent_prog (active : (s.prog p).active = true) :
    (eligibilityEvent p s).prog p = (s.prog p).eventful s (s.progCond p .noSource) := by
  have feeds : SameHealth s (judgeNoSource p s) := fun f => by rw [State.feed_congr (judgeNoSource_feeds p s)]
  have judged : (judgeNoSource p s).progCond p .noSource = noSourceTest s (s.prog p) := by
    rw [judgeNoSource_noSourceAt p s, judgeNoSource_prog, noSourceTest_same feeds (.refl _)]
  have zeroed : (judgeReturnSet p (judgeNoSource p s)).prog p =
        (if (s.prog p).running && !returnEligible s (s.prog p) then (s.prog p).zeroReturn else s.prog p) ∧
      (judgeReturnSet p (judgeNoSource p s)).progCond p .noSource = noSourceTest s (s.prog p) ∧
      SameHealth s (judgeReturnSet p (judgeNoSource p s)) := by
    unfold judgeReturnSet
    rw [judgeNoSource_prog, returnEligible_same feeds (.refl _)]
    split
    · refine ⟨?_, judged, feeds⟩
      rw [State.onProg_eq, State.setProg_prog_self, judgeNoSource_prog]
    · exact ⟨judgeNoSource_prog .., judged, feeds⟩
  obtain ⟨prog, cond, healthy⟩ := zeroed
  have ranks := (s.prog p).zeroed_ranks ((s.prog p).running && !returnEligible s (s.prog p))
  unfold eligibilityEvent noSourceRelease Program.eventful
  rw [if_pos active]
  dsimp only
  rw [prog, cond, currentEligible_same healthy ranks, ranks.running]
  split
  · rw [State.onProg_eq, State.setProg_prog_self, prog]
  · exact prog

/-- NO_SOURCE of a program that runs or stops is judged by an eligibility event (R76). -/
theorem eligibilityEvent_noSource (active : (s.prog p).active = true) :
    (eligibilityEvent p s).progCond p .noSource = noSourceTest s (s.prog p) := by
  have feeds : SameHealth s (judgeNoSource p s) := fun f => by rw [State.feed_congr (judgeNoSource_feeds p s)]
  rw [(eligibilityEvent_same active).noSource p, judgeNoSource_noSourceAt p s, judgeNoSource_prog,
    noSourceTest_same feeds (.refl _)]

theorem eligibilityEvent_idle (idle : (s.prog p).active = false) : eligibilityEvent p s = s := by
  unfold eligibilityEvent
  rw [idle]
  rfl

end

/-! ## The health of a feed reaches every program (R62, R63, R70) -/

/-- The release of NO_SOURCE begins a failover swap (R76). -/
def Released (s t : State) (p : ProgId) : Prop :=
  s.progCond p .noSource = true ∧ t.progCond p .noSource = false ∧ (s.prog p).state = .running ∧
    currentEligible t (t.prog p) = false

/-- A feed that is unhealthy triggers a program (R70). -/
def Triggered (f : FeedId) (s : State) (p : ProgId) : Prop :=
  (s.feed f).healthy = false ∧ (s.prog p).state = .running ∧ Names (s.prog p).currentSet f ∧
    s.progCond p .noSource = false

/-- What a feed's change of health, already in the feed's record, has made of a program. -/
structure HealthReached (f : FeedId) (p : ProgId) (s t : State) : Prop where
  ranks : (s.prog p).SameRanks (t.prog p)
  healthy : SameHealth s t
  judged : (s.prog p).active = true → (s.prog p).namesFeed f = true →
    t.progCond p .noSource = noSourceTest t (t.prog p) ∧ (t.prog p).returnTimer =
      if (s.prog p).running && !returnEligible t (t.prog p) then 0 else (s.prog p).returnTimer
  apart : (s.prog p).active = false ∨ (s.prog p).namesFeed f = false →
    t.progCond p .noSource = s.progCond p .noSource
  begun : Released s t p ∨ Triggered f s p → (t.prog p).swap = failoverSwap (s.prog p)
  stays : ¬Released s t p → ¬Triggered f s p → (t.prog p).swap = (s.prog p).swap

/-- What the eligibility event of a feed's change of health has made of a program (R63). -/
structure EventReached (f : FeedId) (p : ProgId) (s t : State) : Prop where
  ranks : (s.prog p).SameRanks (t.prog p)
  healthy : SameHealth s t
  judged : (s.prog p).active = true → (s.prog p).namesFeed f = true →
    t.progCond p .noSource = noSourceTest t (t.prog p) ∧ (t.prog p).returnTimer =
      if (s.prog p).running && !returnEligible t (t.prog p) then 0 else (s.prog p).returnTimer
  apart : (s.prog p).active = false ∨ (s.prog p).namesFeed f = false →
    t.progCond p .noSource = s.progCond p .noSource
  begun : Released s t p → (t.prog p).swap = failoverSwap (s.prog p)
  stays : ¬Released s t p → (t.prog p).swap = (s.prog p).swap

theorem eventReached_still {f : FeedId} {p : ProgId} {s : State}
    (still : (s.prog p).active = false ∨ (s.prog p).namesFeed f = false) : EventReached f p s s where
  ranks := .refl _
  healthy _ := rfl
  judged on names := by
    obtain off | apart := still
    · exact absurd (off.symm.trans on) (by decide)
    · exact absurd (apart.symm.trans names) (by decide)
  apart _ := rfl
  begun released := by
    obtain ⟨before, after, _⟩ := released
    exact absurd (after.symm.trans before) (by decide)
  stays _ := rfl

theorem ProgEffect.sameHealth {p : ProgId} {s t : State} (h : ProgEffect p s t) : SameHealth s t :=
  fun f => by rw [State.feed_congr h.feeds]

theorem eventReached (f : FeedId) (p : ProgId) (s : State) :
    EventReached f p s (if (s.prog p).namesFeed f then eligibilityEvent p s else s) := by
  cases names : (s.prog p).namesFeed f with
  | false => exact eventReached_still (.inr names)
  | true =>
    rw [if_pos rfl]
    cases active : (s.prog p).active with
    | false => rw [eligibilityEvent_idle active]; exact eventReached_still (.inl active)
    | true =>
      have prog := eligibilityEvent_prog active
      have cond := eligibilityEvent_noSource active
      have healthy : SameHealth s (eligibilityEvent p s) := (ProgEffect.eligibilityEvent p s).sameHealth
      have ranks : (s.prog p).SameRanks ((eligibilityEvent p s).prog p) := by rw [prog]; exact eventful_ranks
      have released : Released s (eligibilityEvent p s) p ↔ (s.progCond p .noSource &&
          !noSourceTest s (s.prog p) && (s.prog p).running && !currentEligible s (s.prog p)) = true := by
        unfold Released
        rw [cond, currentEligible_same healthy ranks, ← Program.running_iff]
        simp only [Bool.and_eq_true, Bool.not_eq_true', and_assoc]
      refine ⟨ranks, healthy, fun _ _ => ⟨?_, ?_⟩, fun still => ?_, fun begun => ?_, fun stays => ?_⟩
      · rw [cond, noSourceTest_same healthy ranks]
      · rw [returnEligible_same healthy ranks, prog, eventful_timer]
      · obtain off | apart := still
        · exact absurd (active.symm.trans off) (by decide)
        · exact absurd (names.symm.trans apart) (by decide)
      · rw [prog, eventful_swap, if_pos (released.1 begun)]
      · rw [prog, eventful_swap, if_neg fun h => stays (released.2 h)]

theorem healthReaches_reached (f : FeedId) (p : ProgId) (s : State) : HealthReached f p s (healthReaches f p s) := by
  have event : EventReached f p s (if (s.prog p).namesFeed f then eligibilityEvent p s else s) := eventReached f p s
  unfold healthReaches
  dsimp only
  generalize (if (s.prog p).namesFeed f then eligibilityEvent p s else s) = u at event
  obtain ⟨ranks, healthy, judged, apart, begun, stays⟩ := event
  have quiet (none : ¬Triggered f s p) : HealthReached f p s u :=
    ⟨ranks, healthy, judged, apart, fun h => begun (h.resolve_right none), fun h _ => stays h⟩
  cases well : (s.feed f).healthy with
  | true => exact quiet fun h => absurd (well.symm.trans h.1) (by decide)
  | false =>
    rw [if_neg (by decide)]
    unfold feedTrigger
    dsimp only
    rw [ranks.running, ranks.current]
    split
    · next reached =>
      simp only [Bool.and_eq_true, Bool.not_eq_true', Program.running_iff, setNames_iff] at reached
      obtain ⟨⟨running, names⟩, before⟩ := reached
      rw [State.onProg_eq]
      have triggered : (u.prog p).SameRanks ((u.prog p).triggered .failover) := Program.triggered_ranks ..
      have after : (u.setProg p ((u.prog p).triggered .failover)).prog p = (u.prog p).triggered .failover := by simp
      have same : SameHealth u (u.setProg p ((u.prog p).triggered .failover)) := fun _ => rfl
      have unreleased : ¬Released s u p := fun h => absurd (before.symm.trans h.1) (by decide)
      refine ⟨?_, fun g => healthy g, fun on named => ?_, apart, fun _ => ?_, fun _ h => absurd ⟨well, running, names, before⟩ h⟩
      · rw [after]; exact ranks.trans triggered
      · obtain ⟨cond, timer⟩ := judged on named
        rw [after, noSourceTest_same same triggered, returnEligible_same same triggered, Program.triggered_timer]
        exact ⟨cond, timer⟩
      · rw [after, Program.triggered_swap]
        unfold failoverSwap
        rw [stays unreleased, ranks.rank]
    · next unreached =>
      refine quiet fun ⟨_, running, names, before⟩ => unreached ?_
      simp only [Bool.and_eq_true, Bool.not_eq_true', Program.running_iff, setNames_iff]
      exact ⟨⟨running, names⟩, before⟩

theorem HealthReached.later {f : FeedId} {p : ProgId} {s t u : State} (h : HealthReached f p s t) (prog : u.prog p = t.prog p)
    (healthy : SameHealth t u) (cond : u.progCond p .noSource = t.progCond p .noSource) : HealthReached f p s u := by
  obtain ⟨ranks, same, judged, apart, begun, stays⟩ := h
  have ranks' : (t.prog p).SameRanks (u.prog p) := by rw [prog]; exact .refl _
  have released : Released s u p ↔ Released s t p := by
    unfold Released; rw [cond, currentEligible_same healthy ranks']
  refine ⟨by rw [prog]; exact ranks, fun g => (healthy g).trans (same g), fun on names => ?_, fun still => ?_,
    fun h => ?_, fun h g => ?_⟩
  · rw [cond, noSourceTest_same healthy ranks', returnEligible_same healthy ranks', prog]
    exact judged on names
  · rw [cond]; exact apart still
  · rw [prog]; exact begun (by rwa [← released])
  · rw [prog]; exact stays (by rwa [← released]) g

theorem HealthReached.earlier {f : FeedId} {p : ProgId} {s t u : State} (h : HealthReached f p t u)
    (prog : t.prog p = s.prog p) (healthy : SameHealth s t) (cond : t.progCond p .noSource = s.progCond p .noSource) :
    HealthReached f p s u := by
  obtain ⟨ranks, same, judged, apart, begun, stays⟩ := h
  unfold Released Triggered at begun stays
  rw [prog, cond, healthy f] at begun stays
  rw [prog] at ranks judged
  rw [prog, cond] at apart
  exact ⟨ranks, fun g => (same g).trans (healthy g), judged, apart, begun, stays⟩

/-- A change of a feed's health, stored in its record, reaches every program. -/
theorem forEach_healthReaches (f : FeedId) (p : ProgId) (s : State) :
    HealthReached f p s (forEach allProgs (healthReaches f) s) := by
  have sameCond {p q : ProgId} {s t : State} (effect : ProgEffect p s t) (hq : q ≠ p) :
      t.progCond q .noSource = s.progCond q .noSource := (effect.sourceSame hq).noSource
  refine forEach_progs (R := fun u q => u.prog q = s.prog q ∧ SameHealth s u ∧
      u.progCond q .noSource = s.progCond q .noSource) (P := fun u q => HealthReached f q s u)
    (fun q u => .healthReaches f q u) (fun q u h => ?_) (fun effect hq h => ?_) (fun effect hq h => ?_)
    (fun q => ⟨rfl, fun _ => rfl, rfl⟩) p
  · obtain ⟨prog, healthy, cond⟩ := h
    exact (healthReaches_reached f q u).earlier prog healthy cond
  · obtain ⟨prog, healthy, cond⟩ := h
    exact ⟨(effect.prog _ hq).trans prog, fun g => (effect.sameHealth g).trans (healthy g), (sameCond effect hq).trans cond⟩
  · exact h.later (effect.prog _ hq) effect.sameHealth (sameCond effect hq)

/-! ## A feed judged again (R62) -/

theorem namesFeed_iff (g : Program) (f : FeedId) : g.namesFeed f = true ↔ ∃ r l, g.setAt r = some l ∧ Names l f := by
  unfold Program.namesFeed
  rw [List.any_eq_true]
  constructor
  · rintro ⟨r, _, named⟩
    cases set : g.setAt r with
    | none => rw [set] at named; exact (Bool.false_ne_true named).elim
    | some l => rw [set] at named; exact ⟨r, l, set, (setNames_iff l f).1 named⟩
  · rintro ⟨r, l, set, names⟩
    exact ⟨r, List.mem_finRange r, by rw [set]; exact (setNames_iff l f).2 names⟩

/-- The feed's record with its health as it has been judged. -/
def healthStored (f : FeedId) (s : State) : State := s.setFeed f { s.feed f with healthy := healthTest s f }

theorem judgeHealth_of_ne {f : FeedId} {s : State} (h : (s.feed f).healthy ≠ healthTest s f) :
    judgeHealth f s = forEach allProgs (healthReaches f) (healthStored f s) := by
  unfold judgeHealth
  exact if_neg h

theorem judgeHealth_of_eq {f : FeedId} {s : State} (h : (s.feed f).healthy = healthTest s f) : judgeHealth f s = s := by
  unfold judgeHealth
  exact if_pos h

section
variable {f : FeedId} {s : State} (change : (s.feed f).healthy ≠ healthTest s f)
include change

theorem judgeHealth_reached (p : ProgId) : HealthReached f p (healthStored f s) (judgeHealth f s) := by
  rw [judgeHealth_of_ne change]
  exact forEach_healthReaches f p _

theorem judgeHealth_healthy : ((judgeHealth f s).feed f).healthy = healthTest s f := by
  rw [(judgeHealth_reached change 0).healthy f]
  unfold healthStored
  rw [State.setFeed_feed_self]

theorem judgeHealth_eligibility : EligibilityJudged f s (judgeHealth f s) := by
  intro p active names
  have reached := judgeHealth_reached change p
  obtain ⟨cond, timer⟩ := reached.judged active ((namesFeed_iff _ f).2 names)
  have on : ((judgeHealth f s).prog p).active = true := reached.ranks.active.trans active
  refine ⟨?_, timer.trans ?_⟩
  · rw [cond, noSourceTest_iff on]
  · simp only [Bool.and_eq_true, Bool.not_eq_true', Program.running_iff]
    rfl

end

/-- A healthy feed judged unhealthy makes nothing eligible (R62, R63). -/
theorem eligible_healthStored {f : FeedId} {s : State} (was : (s.feed f).healthy = true) {g : Program} {r : Rank}
    (h : eligible (healthStored f s) g r = true) : eligible s g r = true := by
  unfold eligible rankHealthy at h ⊢
  rw [Bool.and_eq_true] at h ⊢
  refine ⟨?_, h.2⟩
  cases set : g.setAt r with
  | none => rw [set] at h; exact (Bool.false_ne_true h.1).elim
  | some l =>
    rw [set] at h
    refine List.all_eq_true.2 fun x hx => ?_
    by_cases hf : x.feed = f
    · rw [hf]; exact was
    · have well := List.all_eq_true.1 h.1 x hx
      unfold healthStored at well
      rwa [State.setFeed_feed_ne hf] at well

/-- NO_SOURCE does not end where a feed turns unhealthy (R76). -/
theorem judgeHealth_unreleased {f : FeedId} {s : State} (change : (s.feed f).healthy ≠ healthTest s f)
    (was : (s.feed f).healthy = true) (law : SourceLaw s) (p : ProgId) :
    ¬Released (healthStored f s) (judgeHealth f s) p := by
  rintro ⟨before, after, running, _⟩
  have before : s.progCond p .noSource = true := before
  have active : (s.prog p).active = true := (Program.active_iff _).2 (.inl running)
  have reached := judgeHealth_reached change p
  obtain ⟨noCurrent, noRank⟩ := (noSourceTest_iff active).1 ((law.noSourceAt p).symm.trans before)
  have none (r : Rank) : eligible (healthStored f s) (s.prog p) r = false :=
    Bool.eq_false_iff.2 fun h => Bool.false_ne_true ((noRank r).symm.trans (eligible_healthStored was h))
  have test : noSourceTest (healthStored f s) (s.prog p) = true := by
    refine (noSourceTest_iff active).2 ⟨?_, none⟩
    unfold currentEligible
    cases (s.prog p).currentRank with
    | none => rfl
    | some r => exact none r
  cases names : (s.prog p).namesFeed f with
  | false => exact Bool.false_ne_true (after.symm.trans ((reached.apart (.inr names)).trans before))
  | true =>
    obtain ⟨cond, _⟩ := reached.judged active names
    rw [noSourceTest_same reached.healthy reached.ranks] at cond
    exact Bool.false_ne_true (after.symm.trans (cond.trans test))

/-- A feed judged unhealthy (R62, R63, R70). -/
theorem judgeHealth_lost {f : FeedId} {s : State} (test : healthTest s f = false) : HealthLost f s (judgeHealth f s) := by
  cases was : (s.feed f).healthy with
  | false =>
    rw [judgeHealth_of_eq (was.trans test.symm)]
    exact ⟨was, fun _ _ => rfl, fun h => absurd (was.symm.trans h) (by decide)⟩
  | true =>
    have change : (s.feed f).healthy ≠ healthTest s f := by rw [was, test]; decide
    have stored : ((healthStored f s).feed f).healthy = false := by
      unfold healthStored; rw [State.setFeed_feed_self]; exact test
    refine ⟨(judgeHealth_healthy change).trans test, fun h => absurd (was.symm.trans h) (by decide), fun _ =>
      ⟨judgeHealth_eligibility change, fun p => ⟨fun running names before => ?_, fun law other => ?_⟩⟩⟩
    · exact (judgeHealth_reached change p).begun (.inr ⟨stored, running, names, before⟩)
    · have reached := judgeHealth_reached change p
      refine reached.stays (judgeHealth_unreleased change was law p) fun ⟨_, running, names, before⟩ => ?_
      obtain h | h | h := other
      · exact h running
      · exact h names
      · exact absurd (h.symm.trans before) (by decide)

/-- A feed judged healthy (R62, R63, R76). -/
theorem judgeHealth_gained {f : FeedId} {s : State} (test : healthTest s f = true) (was : (s.feed f).healthy = false) :
    HealthGained f s (judgeHealth f s) := by
  have change : (s.feed f).healthy ≠ healthTest s f := by rw [was, test]; decide
  have stored : ((healthStored f s).feed f).healthy = true := by
    unfold healthStored; rw [State.setFeed_feed_self]; exact test
  refine ⟨(judgeHealth_healthy change).trans test, judgeHealth_eligibility change, fun p => ?_⟩
  have reached := judgeHealth_reached change p
  have none : ¬Triggered f (healthStored f s) p := fun h => absurd (stored.symm.trans h.1) (by decide)
  split
  · next released => exact reached.begun (.inl released)
  · next released => exact reached.stays released none

end Sys2Proof.Machine
end

section
/-! PROOFS. The health that a feed's conditions, its enable and its loss leave (O15, O22). -/
namespace Sys2Proof.Machine

/-! ## What a move of the delay target touches in a program -/

/-- Only the delay record and the output fade's direction differ. -/
def Program.SameButDelay (g h : Program) : Prop := h = { g with delay := h.delay, outDir := h.outDir }

namespace Program.SameButDelay

theorem trans {g h i : Program} (k : g.SameButDelay h) (l : h.SameButDelay i) : g.SameButDelay i := by
  unfold Program.SameButDelay at *
  rw [l, k]

theorem chooseOp (g : Program) : g.SameButDelay g.chooseOp := by
  unfold Program.chooseOp
  split
  · rfl
  · split <;> rfl

theorem retarget (g : Program) : g.SameButDelay g.retarget := by
  unfold Program.retarget
  split
  · exact chooseOp g
  · split <;> rfl
  · rfl
  · rfl

theorem afterClamp (g : Program) : g.SameButDelay g.afterClamp := by
  unfold Program.afterClamp
  split
  · exact chooseOp g
  · exact chooseOp g
  · rfl
  · rfl

theorem moveTarget (p : ProgId) (s : State) : (s.prog p).SameButDelay ((moveTarget p s).prog p) := by
  have aimed (t b : Nat) : (s.prog p).SameButDelay ((s.prog p).aimed t b) := rfl
  rw [moveTarget_prog_self]
  dsimp only
  split
  · exact aimed _ _
  · split
    · exact (aimed _ _).trans (afterClamp _)
    · split
      · exact aimed _ _
      · exact (aimed _ _).trans (retarget _)

theorem recomputeDelay (p q : ProgId) (s : State) : (s.prog q).SameButDelay ((recomputeDelay p s).prog q) := by
  unfold Machine.recomputeDelay
  split
  · by_cases hq : q = p
    · subst hq
      have moved := moveTarget q (judgeLatency q s)
      rwa [judgeLatency_prog] at moved
    · rw [(ProgEffect.moveTarget p _).prog q hq, judgeLatency_prog]; rfl
  · rfl

end Program.SameButDelay

/-! ## Work that moves no swap -/

/-- Two states agree on the health of every feed and on what the swaps follow from. -/
structure Unmoved (s t : State) : Prop where
  ranks : ∀ p, (s.prog p).SameRanks (t.prog p)
  swap : ∀ p, (t.prog p).swap = (s.prog p).swap
  timer : ∀ p, (t.prog p).returnTimer = (s.prog p).returnTimer
  healthy : SameHealth s t
  noSource : ∀ p, t.progCond p .noSource = s.progCond p .noSource
  onBackup : ∀ p, t.progCond p .onBackup = s.progCond p .onBackup

namespace Unmoved
variable {s t u : State}

theorem refl (s : State) : Unmoved s s := ⟨fun _ => .refl _, fun _ => rfl, fun _ => rfl, fun _ => rfl, fun _ => rfl, fun _ => rfl⟩

theorem trans (h : Unmoved s t) (g : Unmoved t u) : Unmoved s u :=
  ⟨fun p => (h.ranks p).trans (g.ranks p), fun p => (g.swap p).trans (h.swap p), fun p => (g.timer p).trans (h.timer p),
    fun f => (g.healthy f).trans (h.healthy f), fun p => (g.noSource p).trans (h.noSource p),
    fun p => (g.onBackup p).trans (h.onBackup p)⟩

/-- A change of other records and of conditions that no swap follows from. -/
theorem ofProgs (progs : t.progs = s.progs) (healthy : SameHealth s t)
    (noSource : ∀ p, t.progCond p .noSource = s.progCond p .noSource)
    (onBackup : ∀ p, t.progCond p .onBackup = s.progCond p .onBackup) : Unmoved s t := by
  have prog (p : ProgId) : t.prog p = s.prog p := by simp only [State.prog, progs]
  exact ⟨fun p => by rw [prog]; exact .refl _, fun p => by rw [prog], fun p => by rw [prog], healthy, noSource, onBackup⟩

theorem other (h : Unmoved s t) (feeds : u.feeds = t.feeds) (progs : u.progs = t.progs) (conds : u.conds = t.conds) :
    Unmoved s u :=
  h.trans (ofProgs progs (fun f => by rw [State.feed_congr feeds]) (fun _ => State.cond_congr conds _)
    fun _ => State.cond_congr conds _)

theorem setFeed (h : Unmoved s t) {f : FeedId} {x : Feed} (healthy : x.healthy = (t.feed f).healthy) :
    Unmoved s (t.setFeed f x) := by
  refine h.trans (ofProgs rfl (fun g => ?_) (fun _ => rfl) fun _ => rfl)
  by_cases hg : g = f
  · subst hg; rw [State.setFeed_feed_self, healthy]
  · rw [State.setFeed_feed_ne hg]

theorem onPort (f : FeedId) (g : Port → Port) (h : Unmoved s t) : Unmoved s (t.onPort f g) := by
  rw [State.onPort_eq]
  exact h.setFeed rfl

theorem follow (f : FeedId) (k : FeedCond) (v : Bool) (h : Unmoved s t) : Unmoved s (follow (feedEntry f k) v t).1 := by
  have effect := EntryEffect.follow (feedEntry f k) v t
  have cond (p : ProgId) (j : ProgCond) : (Machine.follow (feedEntry f k) v t).1.progCond p j = t.progCond p j := by
    rw [State.progCond, follow_cond, if_neg (feedEntry_ne_progEntry f k p j).symm]; rfl
  exact h.trans (ofProgs effect.progs (fun g => by rw [State.feed_congr effect.feeds]; rfl) (fun p => cond p _)
    fun p => cond p _)

theorem pushNotice (k : NoticeKind) (src : Source) (d : List Byte) (h : Unmoved s t) :
    Unmoved s (pushNotice k src d t) :=
  h.other (EntryEffect.pushNotice 0 k src d t).feeds (EntryEffect.pushNotice 0 k src d t).progs
    (EntryEffect.pushNotice 0 k src d t).conds

theorem sourcesSame (h : Unmoved s t) : SourcesSame s t := ⟨fun p => (h.ranks p).source, h.noSource, h.onBackup, h.healthy⟩

theorem recomputeDelay (p : ProgId) (h : Unmoved s t) : Unmoved s (recomputeDelay p t) := by
  have source := SourcesSame.recomputeDelay p (SourcesSame.refl t)
  have rest (q : ProgId) := Program.SameButDelay.recomputeDelay p q t
  refine h.trans ⟨fun q => ?_, fun q => ?_, fun q => ?_, source.healthy, source.noSource, source.onBackup⟩
  · rw [rest q]; exact ⟨rfl, rfl, rfl, rfl⟩
  · rw [rest q]
  · rw [rest q]

theorem classEvent (f : FeedId) (was now : Option RateClass) (h : Unmoved s t) : Unmoved s (classEvent f was now t) := by
  unfold Machine.classEvent
  refine forEach_induction (P := Unmoved s) (fun p u g => ?_) allProgs _ (h.pushNotice ..)
  unfold realign
  split
  · exact g.recomputeDelay p
  · exact g

end Unmoved

/-! ## A condition of a feed -/

section
variable (f : FeedId) (k : FeedCond) (v : Bool) (s : State)

/-- A feed entry hands its feed over to be judged, or nothing (R140). -/
theorem setFeedCond_judged : setFeedCond f k v s = (follow (feedEntry f k) v s).1 ∨
    setFeedCond f k v s = judgeHealth f (follow (feedEntry f k) v s).1 := by
  unfold setFeedCond setCond handOver
  rw [entrySource_feedEntry]
  split
  · cases (follow (feedEntry f k) v s).2
    · exact .inl rfl
    · exact .inr rfl
    · exact .inr rfl
  · exact .inl rfl

theorem setFeedCond_entry (j : FeedCond) : (setFeedCond f k v s).entry (feedEntry f j) =
    if j = k ∧ s.feedCond f k ≠ v then
      (if v then (s.entry (feedEntry f k)).onTrue s.blockCounter else (s.entry (feedEntry f k)).onFalse)
    else s.entry (feedEntry f j) := by
  have own : feedEntry f j = feedEntry f k ↔ j = k := ⟨fun h => (feedEntry_inj h).2, fun h => h ▸ rfl⟩
  have followed := follow_entry (feedEntry f k) (feedEntry f j) v s
  simp only [own] at followed
  obtain h | h := setFeedCond_judged f k v s
  · rw [h, followed]; rfl
  · rw [h, judgeHealth_entry, followed]
    · rfl
    · exact fun p l => feedEntry_ne_progEntry f j p l

theorem setFeedCond_enable (g : FeedId) : ((setFeedCond f k v s).feed g).port = (s.feed g).port := by
  rw [(setFeedCond_effect f k v s).feed g]; rfl

variable {f k v s}

/-- Where a condition leaves its feed's health, it moves no swap. -/
theorem setFeedCond_unmoved (kept : ((setFeedCond f k v s).feed f).healthy = (s.feed f).healthy) :
    Unmoved s (setFeedCond f k v s) := by
  have followed := (Unmoved.refl s).follow f k v
  obtain h | h := setFeedCond_judged f k v s
  · rw [h]; exact followed
  · rw [h] at kept ⊢
    by_cases same : ((follow (feedEntry f k) v s).1.feed f).healthy = healthTest (follow (feedEntry f k) v s).1 f
    · rw [judgeHealth_of_eq same]; exact followed
    · rw [judgeHealth_healthy same, ← followed.healthy f] at kept
      exact absurd kept.symm same

/-- An entry that does not hold its feed unhealthy ends its condition without a word to the feed. -/
theorem setFeedCond_false_up (up : (s.entry (feedEntry f k)).down = false) : Unmoved s (setFeedCond f k false s) := by
  have followed := (Unmoved.refl s).follow f k false
  have silent : setFeedCond f k false s = (follow (feedEntry f k) false s).1 := by
    unfold setFeedCond setCond
    by_cases action : (s.entry (feedEntry f k)).config.action = .failover
    · have none : (follow (feedEntry f k) false s).2 = .none := by
        have idle : (s.entry (feedEntry f k)).state ≠ .active := fun h => by simp [Entry.down, action, h] at up
        unfold follow conditionFalse
        cases state : (s.entry (feedEntry f k)).state <;> simp_all <;> split <;> rfl
      rw [none, handOver_none]
    · exact handOver_inert (by rw [(EntryEffect.follow (feedEntry f k) false s).config]; simpa using action) _
  rw [silent]
  exact followed

end

/-! ## A feed whose entries leave its health as it stands -/

/-- No entry of the feed holds it unhealthy. -/
def Up (f : FeedId) (s : State) : Prop := ∀ k, (s.entry (feedEntry f k)).down = false

theorem Entry.onFalse_up {x : Entry} (h : x.down = false) : x.onFalse.down = false := by
  cases action : x.config.action with
  | none =>
    have kept : x.onFalse.config = x.config := by
      unfold Entry.onFalse
      split
      · rfl
      · split <;> rfl
      · rfl
      · rfl
    simp [Entry.down, kept, action]
  | failover =>
    unfold Entry.onFalse
    cases state : x.state with
    | clear => exact h
    | rising => simp [Entry.down, Entry.cleared]
    | active => simp [Entry.down, action, state] at h
    | falling => exact h

theorem Up.setFeedCond_false {f : FeedId} {s : State} (h : Up f s) (k : FeedCond) : Up f (setFeedCond f k false s) := by
  intro j
  rw [setFeedCond_entry]
  split
  · exact Entry.onFalse_up (h k)
  · exact h j

theorem Up.congr {f : FeedId} {s t : State} (h : Up f s) (entries : ∀ k, t.entry (feedEntry f k) = s.entry (feedEntry f k)) :
    Up f t := fun k => by rw [entries k]; exact h k

theorem healthTest_up {f : FeedId} {s : State} (h : Up f s) : healthTest s f = (s.feed f).port.enable := by
  rw [healthTest_eq]
  simp [feedConds, h _]

theorem up_iff {f : FeedId} {s : State} : Up f s ↔ ∀ k, ¬HoldsUnhealthy (s.entry (feedEntry f k)) := by
  refine forall_congr' fun k => ?_
  unfold Entry.down HoldsUnhealthy
  rw [Bool.eq_false_iff]
  simp

theorem healthTest_down {f : FeedId} {j : FeedCond} {s : State} (down : (s.entry (feedEntry f j)).down = true) :
    healthTest s f = false := by
  rw [healthTest_eq, Bool.and_eq_false_iff]
  refine .inr (Bool.eq_false_iff.2 fun all => ?_)
  have up := List.all_eq_true.1 all j (by cases j <;> decide)
  simp [down] at up

/-- The feed is unhealthy, as it is judged, by an entry that another condition's end leaves as it is, or by one that
falls. -/
structure Ill (f : FeedId) (j : FeedCond) (s : State) : Prop where
  judged : HealthAt s f
  down : (s.entry (feedEntry f j)).down = true

namespace Ill
variable {f : FeedId} {j : FeedCond} {s : State}

theorem test (h : Ill f j s) : healthTest s f = false := healthTest_down h.down

theorem healthy (h : Ill f j s) : (s.feed f).healthy = false := h.judged.trans h.test

theorem setFeedCond_false (h : Ill f j s) {k : FeedCond}
    (other : j ≠ k ∨ (s.entry (feedEntry f j)).state = .falling) :
    Ill f j (setFeedCond f k false s) ∧ Unmoved s (setFeedCond f k false s) ∧
      (setFeedCond f k false s).entry (feedEntry f j) = s.entry (feedEntry f j) := by
  have entry : (setFeedCond f k false s).entry (feedEntry f j) = s.entry (feedEntry f j) := by
    rw [setFeedCond_entry]
    split
    · next same =>
      obtain ⟨rfl, _⟩ := same
      have falling := other.resolve_left (fun h => h rfl)
      simp [Entry.onFalse, falling]
    · rfl
  have judged : HealthAt (setFeedCond f k false s) f :=
    HealthOn.setCond (Q := (· = f)) (fun g hg => by subst hg; exact h.judged) _ _ f rfl
  have ill : Ill f j (setFeedCond f k false s) := ⟨judged, by rw [entry]; exact h.down⟩
  exact ⟨ill, setFeedCond_unmoved (ill.healthy.trans h.healthy.symm), entry⟩

end Ill

/-! ## Health among work that moves no swap -/

theorem failoverSwap_congr {g h : Program} (ranks : g.SameRanks h) (swap : h.swap = g.swap) :
    failoverSwap h = failoverSwap g := by
  unfold failoverSwap; rw [swap, ranks.rank]

section
variable {f : FeedId} {s t u v : State} (before : Unmoved s t) (after : Unmoved u v)
include before after

theorem EligibilityJudged.congr (h : EligibilityJudged f t u) : EligibilityJudged f s v := by
  intro p active names
  have ranks := before.ranks p
  obtain ⟨cond, timer⟩ := h p (ranks.active.trans active) (by
    obtain ⟨r, l, set, named⟩ := names
    exact ⟨r, l, (ranks.setAt r).trans set, named⟩)
  rw [after.noSource, currentEligible_same after.healthy (after.ranks p), after.timer,
    returnEligible_same after.healthy (after.ranks p), ← before.timer, ← ranks.state]
  refine ⟨cond.trans (and_congr_right fun _ => forall_congr' fun r => ?_), timer⟩
  rw [eligible_same after.healthy (after.ranks p)]

theorem HealthLost.congr (h : HealthLost f t u) : HealthLost f s v := by
  obtain ⟨healthy, stays, moves⟩ := h
  rw [before.healthy f] at stays moves
  refine ⟨(after.healthy f).trans healthy, fun was p => (after.swap p).trans ((stays was p).trans (before.swap p)),
    fun was => ?_⟩
  obtain ⟨judged, swaps⟩ := moves was
  refine ⟨.congr before after judged, fun p => ?_⟩
  obtain ⟨begun, kept⟩ := swaps p
  have ranks := before.ranks p
  rw [ranks.state, ranks.current, before.noSource, failoverSwap_congr ranks (before.swap p)] at begun
  rw [ranks.state, ranks.current, before.noSource, before.swap] at kept
  rw [after.swap]
  exact ⟨begun, fun law => kept (before.sourcesSame.law law)⟩

theorem HealthGained.congr (h : HealthGained f t u) : HealthGained f s v := by
  obtain ⟨healthy, judged, swaps⟩ := h
  refine ⟨(after.healthy f).trans healthy, .congr before after judged, fun p => ?_⟩
  have swap := swaps p
  have ranks := before.ranks p
  rw [ranks.state, before.noSource, before.swap, failoverSwap_congr ranks (before.swap p)] at swap
  rw [after.swap, swap, after.noSource, currentEligible_same after.healthy (after.ranks p)]

end

/-! ## A converter that leaves its class -/

section
variable {f : FeedId} {s : State} {c : Converter} (still : c.state ≠ .track)
include still

theorem changeConverter_eq : ∃ u, u = setFeedCond f .srcUnlocked false (s.setFeed f { s.feed f with conv := c }) ∧
    FeedsSame u (changeConverter f c s) ∧ (Unmoved s u → Unmoved s (changeConverter f c s)) := by
  have off : (c.state == .track) = false := by simpa using still
  refine ⟨_, rfl, ?_, fun h => ?_⟩
  · have same := changeConverter_feedsSame f c s
    rwa [off] at same
  · unfold changeConverter
    dsimp only
    rw [off]
    split
    · exact h
    · exact h.classEvent ..

theorem Up.changeConverter (h : Up f s) : Up f (changeConverter f c s) ∧ Unmoved s (changeConverter f c s) := by
  obtain ⟨u, hu, same, unmoved⟩ := changeConverter_eq (f := f) (s := s) still
  have put : Unmoved s (s.setFeed f { s.feed f with conv := c }) := (Unmoved.refl s).setFeed rfl
  have up : Up f (s.setFeed f { s.feed f with conv := c }) := h
  refine ⟨.congr (s := u) (hu ▸ up.setFeedCond_false .srcUnlocked) fun k => same.entry f k, unmoved ?_⟩
  rw [hu]
  exact put.trans (setFeedCond_false_up (up _))

theorem Ill.changeConverter {j : FeedCond} (h : Ill f j s)
    (other : j ≠ .srcUnlocked ∨ (s.entry (feedEntry f j)).state = .falling) :
    Ill f j (changeConverter f c s) ∧ Unmoved s (changeConverter f c s) := by
  obtain ⟨u, hu, same, unmoved⟩ := changeConverter_eq (f := f) (s := s) still
  have put : Unmoved s (s.setFeed f { s.feed f with conv := c }) := (Unmoved.refl s).setFeed rfl
  have ill : Ill f j (s.setFeed f { s.feed f with conv := c }) :=
    ⟨h.judged.congr (by rw [State.setFeed_feed_self]) (by rw [State.setFeed_feed_self]) fun _ => rfl, h.down⟩
  obtain ⟨ill, kept, _⟩ := ill.setFeedCond_false other
  rw [← hu] at ill kept
  exact ⟨⟨same.healthAt ill.judged, by rw [same.entry]; exact ill.down⟩, unmoved (put.trans kept)⟩

end

/-! ## The loss of a feed (O22) -/

section
variable {f : FeedId} {s : State} (lost : s.feedCond f .feedLost = false)
  (clear : (s.entry (feedEntry f .feedLost)).state = .clear)
include lost clear

/-- FEED_LOST that becomes true in CLEAR: its entry's record and what it hands over (R134). -/
theorem follow_feedLost : follow (feedEntry f .feedLost) true s =
    if (s.entry (feedEntry f .feedLost)).config.raiseDelay = 0 then
      (raiseEntry (feedEntry f .feedLost) (s.setCondBit (feedEntry f .feedLost) true), .raised)
    else ((s.setCondBit (feedEntry f .feedLost) true).setEntry (feedEntry f .feedLost)
      { s.entry (feedEntry f .feedLost) with
        state := .rising, timer := (s.entry (feedEntry f .feedLost)).config.raiseDelay }, .none) := by
  have lost : s.cond (feedEntry f .feedLost) = false := lost
  unfold follow conditionTrue
  simp only [lost, Bool.false_eq_true, if_false, if_true, State.setCondBit_entry, clear]
  rfl

/-- FEED_LOST with action FAILOVER and raise delay 0 is raised at once: the feed is judged unhealthy (R62, R134). -/
theorem setFeedLost_lost (action : (s.entry (feedEntry f .feedLost)).config.action = .failover)
    (atOnce : (s.entry (feedEntry f .feedLost)).config.raiseDelay = 0) :
    HealthLost f s (setFeedCond f .feedLost true s) ∧ Ill f .feedLost (setFeedCond f .feedLost true s) := by
  have followed := follow_feedLost lost clear
  rw [if_pos atOnce] at followed
  have unmoved := (Unmoved.refl s).follow f .feedLost true
  rw [followed] at unmoved
  have raised : ((raiseEntry (feedEntry f .feedLost) (s.setCondBit (feedEntry f .feedLost) true)).entry
      (feedEntry f .feedLost)) = (s.entry (feedEntry f .feedLost)).raised s.blockCounter := by
    rw [raiseEntry_entry, if_pos rfl]; rfl
  have set : setFeedCond f .feedLost true s = judgeHealth f
      (raiseEntry (feedEntry f .feedLost) (s.setCondBit (feedEntry f .feedLost) true)) := by
    unfold setFeedCond setCond handOver
    rw [followed, entrySource_feedEntry, raised]
    exact if_pos action
  rw [set]
  generalize raiseEntry (feedEntry f .feedLost) (s.setCondBit (feedEntry f .feedLost) true) = u at unmoved raised
  have down : (u.entry (feedEntry f .feedLost)).down = true := by
    rw [raised]; simp [Entry.down, Entry.raised, action]
  have test : healthTest u f = false := healthTest_down down
  refine ⟨.congr unmoved (.refl _) (judgeHealth_lost test), judgeHealth_healthAt f f u fun h => absurd rfl h, ?_⟩
  rw [judgeHealth_entry]
  · exact down
  · exact fun p l => feedEntry_ne_progEntry f .feedLost p l

/-- With another action or a raise delay FEED_LOST leaves the feed as it is. -/
theorem setFeedLost_kept (kept : (s.entry (feedEntry f .feedLost)).config.action ≠ .failover ∨
      (s.entry (feedEntry f .feedLost)).config.raiseDelay ≠ 0) (up : Up f s) :
    Up f (setFeedCond f .feedLost true s) ∧ Unmoved s (setFeedCond f .feedLost true s) := by
  have followed := follow_feedLost lost clear
  have unmoved := (Unmoved.refl s).follow f .feedLost true
  have silent : setFeedCond f .feedLost true s = (follow (feedEntry f .feedLost) true s).1 := by
    unfold setFeedCond setCond
    obtain other | delayed := kept
    · exact handOver_inert (by rw [(EntryEffect.follow (feedEntry f .feedLost) true s).config]; simpa using other) _
    · rw [followed, if_neg delayed, handOver_none]
  refine ⟨fun j => ?_, by rw [silent]; exact unmoved⟩
  rw [setFeedCond_entry]
  split
  · simp only [if_true, Entry.onTrue, clear]
    obtain other | delayed := kept
    · split <;> simp [Entry.down, Entry.raised, other]
    · rw [if_neg delayed]; simp [Entry.down]
  · exact up j

end

end Sys2Proof.Machine
end

section
/-! PROOFS. The loss of a feed (O22), and a port that FEED_CONFIG turns on or off (O15). -/
namespace Sys2Proof.Machine

/-! ## What a loss leaves in the feed (R13, R22) -/

/-- What a feed's port holds after a loss (R13). -/
def FeedView.lostPort (x : FeedView) : FeedView :=
  { x with port := { x.port.abandon with chA := x.port.chA.clean, chB := x.port.chB.clean, lossTimer := none } }

/-- What a feed holds once its converter has left a class, if it held one (R22). -/
def FeedView.lostConv (x : FeedView) : FeedView :=
  if x.conv.state = .track ∨ x.conv.state = .locked then
    FeedView.set { x with conv := x.conv.enterSearch } .srcUnlocked false
  else x

/-- The conditions a loss moves (R13). -/
def FeedView.lostConds (x : FeedView) : FeedView :=
  ((x.set .feedLost true).set .feedErrors false).set .rateUnknown false

theorem FeedView.lostConv_cond (x : FeedView) {k : FeedCond} (h : k ≠ .srcUnlocked) : x.lostConv.cond k = x.cond k := by
  unfold FeedView.lostConv
  split
  · exact if_neg h
  · rfl

theorem FeedView.lostConds_conv (x : FeedView) : x.lostConds.conv = x.conv := rfl

section
variable (f : FeedId) (s : State)

theorem view_loseConverter : view (loseConverter f s) f = (view s f).lostConv := by
  unfold loseConverter FeedView.lostConv
  dsimp only
  have conv : (view s f).conv = (s.feed f).conv := rfl
  rw [conv]
  split
  · rw [view_changeConverter]; rfl
  · rfl

theorem view_lossConditions :
    view (lossConditions f (setFeedCond f .feedLost true s)) f = (view s f).lostConds := by
  unfold lossConditions
  rw [view_setFeedCond, view_setFeedCond, view_setFeedCond]
  rfl

theorem view_declareLoss (first : Bool) : view (declareLoss f first s) f =
    if first then (view s f).lostPort.lostConds.lostConv else (view s f).lostPort.lostConv.lostConds := by
  have cleared : view (clearLostPort f s) f = (view s f).lostPort := view_onPort ..
  unfold declareLoss
  dsimp only
  cases first
  · simp only [Bool.false_eq_true, if_false]
    rw [view_lossConditions, view_loseConverter, cleared]
  · simp only [if_true]
    rw [view_loseConverter, view_lossConditions, cleared]

/-- What a loss leaves in the feed, in either order. -/
structure FeedView.Lost (x y : FeedView) : Prop where
  port : y.port = x.lostPort.port
  conv : y.conv = x.lostConv.conv
  lost : y.cond .feedLost = true
  unknown : y.cond .rateUnknown = false
  errors : y.cond .feedErrors = false
  unlocked : x.conv.state = .track ∨ x.conv.state = .locked → y.cond .srcUnlocked = false

theorem declareLoss_view (first : Bool) : (view s f).Lost (view (declareLoss f first s) f) := by
  rw [view_declareLoss]
  generalize view s f = x
  by_cases held : x.conv.state = .track ∨ x.conv.state = .locked <;> cases first <;> constructor <;>
    simp [FeedView.lostConv, FeedView.lostConds, FeedView.lostPort, FeedView.set, held]

/-- A converter that held a class announces its loss (R22, R27). -/
theorem loseConverter_reported {k : RateClass} (held : (s.feed f).conv.state = .track ∨ (s.feed f).conv.state = .locked)
    (cls : (s.feed f).conv.cls = some k) :
    Reported .feedClass (.feed f) [BitVec.ofNat 8 k.code, 0] s (loseConverter f s) := by
  have told := changeConverter_reported (f := f) (c := (s.feed f).conv.enterSearch) (s := s) (by
    rw [cls]; exact fun h => nomatch h)
  rw [cls] at told
  unfold loseConverter
  dsimp only
  rw [if_pos held]
  exact told

end

section
variable {f : FeedId} {s : State}

theorem enterSearch_state (c : Converter) : c.enterSearch.state ≠ .track := fun h => nomatch h

theorem Up.loseConverter (h : Up f s) : Up f (loseConverter f s) ∧ Unmoved s (loseConverter f s) := by
  unfold Machine.loseConverter
  dsimp only
  split
  · exact h.changeConverter (enterSearch_state _)
  · exact ⟨h, .refl s⟩

theorem Ill.loseConverter (h : Ill f .feedLost s) : Ill f .feedLost (loseConverter f s) ∧ Unmoved s (loseConverter f s) := by
  unfold Machine.loseConverter
  dsimp only
  split
  · exact h.changeConverter (enterSearch_state _) (.inl (by decide))
  · exact ⟨h, .refl s⟩

theorem loseConverter_entry : (loseConverter f s).entry (feedEntry f .feedLost) = s.entry (feedEntry f .feedLost) := by
  unfold Machine.loseConverter
  dsimp only
  split
  · obtain ⟨u, hu, same, _⟩ := changeConverter_eq (f := f) (s := s) (enterSearch_state (s.feed f).conv)
    rw [same.entry, hu, setFeedCond_entry, if_neg fun h => nomatch h.1]
    rfl
  · rfl

theorem Up.lossConditions (h : Up f s) : Up f (lossConditions f s) ∧ Unmoved s (lossConditions f s) :=
  ⟨(h.setFeedCond_false .feedErrors).setFeedCond_false .rateUnknown,
    (setFeedCond_false_up (h _)).trans (setFeedCond_false_up (h.setFeedCond_false .feedErrors _))⟩

theorem Ill.lossConditions (h : Ill f .feedLost s) :
    Ill f .feedLost (lossConditions f s) ∧ Unmoved s (lossConditions f s) := by
  obtain ⟨ill, first, _⟩ := h.setFeedCond_false (k := .feedErrors) (.inl (by decide))
  obtain ⟨ill, second, _⟩ := ill.setFeedCond_false (k := .rateUnknown) (.inl (by decide))
  exact ⟨ill, first.trans second⟩

variable (first : Bool) (lost : s.feedCond f .feedLost = false)
  (clear : (s.entry (feedEntry f .feedLost)).state = .clear) (up : Up f s)
include lost clear up

omit clear in
/-- What is done before FEED_LOST becomes true, in either order. -/
theorem beforeLoss : ∃ u, u = (if first then clearLostPort f s else loseConverter f (clearLostPort f s)) ∧
    Unmoved s u ∧ Up f u ∧ u.feedCond f .feedLost = false ∧
    u.entry (feedEntry f .feedLost) = s.entry (feedEntry f .feedLost) := by
  have cleared : Unmoved s (clearLostPort f s) := (Unmoved.refl s).onPort f _
  have here : Up f (clearLostPort f s) := up
  refine ⟨_, rfl, ?_⟩
  cases first
  · obtain ⟨up, unmoved⟩ := here.loseConverter
    refine ⟨cleared.trans unmoved, up, ?_, loseConverter_entry⟩
    simp only [Bool.false_eq_true, if_false]
    rw [feedCond_of_view (view_loseConverter f _), FeedView.lostConv_cond _ (by decide)]
    exact lost
  · exact ⟨cleared, here, lost, rfl⟩

/-- A loss that raises its entry at once is a feed trigger (R62, R70). -/
theorem declareLoss_lost (action : (s.entry (feedEntry f .feedLost)).config.action = .failover)
    (atOnce : (s.entry (feedEntry f .feedLost)).config.raiseDelay = 0) : HealthLost f s (declareLoss f first s) := by
  obtain ⟨u, hu, unmoved, _, notLost, entry⟩ := beforeLoss first lost up
  obtain ⟨healthLost, ill⟩ := setFeedLost_lost notLost (by rw [entry, clear]) (by rw [entry, action])
    (by rw [entry, atOnce])
  obtain ⟨ill, conds⟩ := ill.lossConditions
  unfold declareLoss
  dsimp only
  cases first
  · simp only [Bool.false_eq_true, if_false] at hu ⊢
    exact .congr unmoved (hu ▸ conds) (hu ▸ healthLost)
  · simp only [if_true] at hu ⊢
    exact .congr unmoved (hu ▸ conds.trans ill.loseConverter.2) (hu ▸ healthLost)

/-- A loss that does not raise a FAILOVER entry at once leaves health and swaps (R62, R132). -/
theorem declareLoss_kept (kept : (s.entry (feedEntry f .feedLost)).config.action ≠ .failover ∨
    (s.entry (feedEntry f .feedLost)).config.raiseDelay ≠ 0) : Unmoved s (declareLoss f first s) := by
  obtain ⟨u, hu, unmoved, up, notLost, entry⟩ := beforeLoss first lost up
  obtain ⟨up, still⟩ := setFeedLost_kept notLost (by rw [entry, clear]) (by rw [entry]; exact kept) up
  obtain ⟨up, conds⟩ := up.lossConditions
  unfold declareLoss
  dsimp only
  cases first
  · simp only [Bool.false_eq_true, if_false] at hu ⊢
    exact unmoved.trans (hu ▸ still.trans conds)
  · simp only [if_true] at hu ⊢
    exact unmoved.trans (hu ▸ still.trans (conds.trans up.loseConverter.2))

end

theorem judgePins_unmoved (s : State) : Unmoved s (judgePins s) := .ofProgs rfl (fun _ => rfl) (fun _ => rfl) fun _ => rfl

theorem judgePins_grows (s : State) : Grows s (judgePins s) := .same rfl rfl

/-- The notice of a class lost with its feed (R27). -/
theorem declareLoss_reported {f : FeedId} {s : State} (first : Bool) {k : RateClass}
    (held : (s.feed f).conv.state = .track ∨ (s.feed f).conv.state = .locked) (cls : (s.feed f).conv.cls = some k) :
    Reported .feedClass (.feed f) [BitVec.ofNat 8 k.code, 0] s (declareLoss f first s) := by
  have cleared : Beside s (clearLostPort f s) := .onPort f _ s
  have conds (u : State) : Beside u (lossConditions f (setFeedCond f .feedLost true u)) :=
    (Beside.setFeedCond f _ _ u).trans ((Beside.setFeedCond f _ _ _).trans (.setFeedCond f _ _ _))
  have port : (view (clearLostPort f s) f).conv = (s.feed f).conv := by
    unfold clearLostPort; rw [view_onPort]; rfl
  unfold declareLoss
  dsimp only
  cases first
  · have told := loseConverter_reported f (clearLostPort f s) (k := k) (by rw [← port] at held; exact held)
      (by rw [← port] at cls; exact cls)
    simp only [Bool.false_eq_true, if_false]
    exact .congr cleared.grows cleared.counter told (conds (loseConverter f (clearLostPort f s))).grows
  · have before := cleared.trans (conds (clearLostPort f s))
    have conv : ((lossConditions f (setFeedCond f .feedLost true (clearLostPort f s))).feed f).conv = (s.feed f).conv := by
      rw [conv_of_view (view_lossConditions f (clearLostPort f s)), FeedView.lostConds_conv, port]
    have told := loseConverter_reported f (lossConditions f (setFeedCond f .feedLost true (clearLostPort f s))) (k := k)
      (by rw [conv]; exact held) (by rw [conv]; exact cls)
    simp only [if_true]
    exact .congr before.grows before.counter told (.refl _)

/-- Settles O22: the view of the feed in either order, its class announced, and FEED_LOST alone deciding its health. -/
theorem feedLossDeclared : Obligations.FeedLossDeclared := by
  intro s f first n live on lost timer late
  have effect := FeedEffect.declareLoss f first s
  obtain ⟨port, conv, isLost, unknown, errors, unlocked⟩ := declareLoss_view f s first
  have due : lossIsDue s f = true := by simp [lossIsDue, on, lost, timer, late]
  refine ⟨judgePins (declareLoss f first s), (onUnit_running live).trans (by rw [if_pos due]), isLost, unknown, errors,
    port, fun tracked => ⟨?_, unlocked tracked, fun k cls => ?_⟩, fun well quiet clear => ⟨fun action atOnce => ?_,
    fun kept => ?_⟩, fun search => ?_, effect.others, effect.runsKept, effect.quiet.store⟩
  · refine conv.trans ?_
    have tracked : (view s f).conv.state = .track ∨ (view s f).conv.state = .locked := tracked
    unfold FeedView.lostConv
    rw [if_pos tracked]
    rfl
  · exact Reported.congr (.refl s) rfl (declareLoss_reported first tracked cls) (judgePins_grows _)
  · exact HealthLost.congr (.refl s) (judgePins_unmoved _) (declareLoss_lost first lost clear (up_iff.2 quiet) action atOnce)
  · have unmoved := (declareLoss_kept first lost clear (up_iff.2 quiet) kept).trans (judgePins_unmoved _)
    exact ⟨(unmoved.healthy f).trans well, unmoved.swap⟩
  · refine conv.trans ?_
    unfold FeedView.lostConv
    have still : (view s f).conv.state = .search := search
    rw [if_neg (by rw [still]; decide)]
    rfl

end Sys2Proof.Machine
end

section
/-! PROOFS. A port that FEED_CONFIG turns on or off (O15). -/
namespace Sys2Proof.Machine

/-- The work of a feed, step by step, is within what one feed can do. -/
theorem FeedSteps.effect {f : FeedId} {s t : State} (h : FeedSteps f s t) : FeedEffect f s t :=
  h.keeps (P := FeedEffect f s) (.refl f s) (fun u x _ _ _ law => law.trans (.setFeed f u x))
    (fun u k v law => law.trans (.setFeedCond f k v u)) (fun u c law => law.trans (.changeConverter f c u))
    fun u law => law.trans (.ofAlarm (.judgeHealth f u))

/-! ## What the change of enable leaves in the feed (R4, R5, R21) -/

/-- The port's conditions become false (R4, R5). -/
def FeedView.portConds (x : FeedView) : FeedView :=
  ((x.set .feedLost false).set .rateUnknown false).set .feedErrors false

/-- What an enable leaves in a feed whose settings are stored (R4, R21). -/
def FeedView.enabled (x : FeedView) : FeedView :=
  FeedView.set
    { FeedView.portConds { x with port :=
        { x.port.abandon with
          chA := x.port.chA.clean, chB := x.port.chB.clean, lastSpan := none, lossTimer := some 0
          lossTimeout := lossTimeoutOf (some .k32) } } with conv := x.conv.enterSearch } .srcUnlocked false

/-- What a disable leaves in a feed whose settings are stored (R5, R21). -/
def FeedView.disabled (x : FeedView) : FeedView :=
  FeedView.set
    { ((FeedView.portConds { x with port :=
        { x.port.abandon with
          chA := x.port.chA.unmuted, chB := x.port.chB.unmuted, lastSpan := none, lossTimer := none } }).set
        .srcUnlocked false).set .srcSlip false with conv := x.conv.enterIdle } .srcUnlocked false

theorem view_conv (s : State) (f : FeedId) : (view s f).conv = (s.feed f).conv := rfl

theorem view_port (s : State) (f : FeedId) : (view s f).port = (s.feed f).port := rfl

section
variable (f : FeedId) (s : State)

theorem view_clearPortConds : view (clearPortConds f s) f = (view s f).portConds := by
  unfold clearPortConds
  rw [view_setFeedCond, view_setFeedCond, view_setFeedCond]
  rfl

/-- The port as an enable leaves it before any condition. -/
def enabledPort (f : FeedId) (s : State) : State := s.onPort f fun q =>
  { q.abandon with
    chA := q.chA.clean, chB := q.chB.clean, lastSpan := none, lossTimer := some 0
    lossTimeout := lossTimeoutOf (some .k32) }

/-- An enable before its feed is judged. -/
def enabling (f : FeedId) (s : State) : State :=
  changeConverter f ((enabledPort f s).feed f).conv.enterSearch (clearPortConds f (enabledPort f s))

theorem enablePort_eq : enablePort f s = judgeHealth f (enabling f s) := rfl

theorem view_enablePort : view (enablePort f s) f = (view s f).enabled := by
  have conv : ((enabledPort f s).feed f).conv = (s.feed f).conv := by
    unfold enabledPort; exact conv_of_view (view_onPort ..)
  rw [enablePort_eq, view_judgeHealth]
  unfold enabling
  rw [view_changeConverter, view_clearPortConds, conv]
  unfold enabledPort
  rw [view_onPort]
  rfl

/-- The port and its conditions as a disable leaves them before the converter. -/
def disabledPort (f : FeedId) (s : State) : State :=
  setFeedCond f .srcSlip false (setFeedCond f .srcUnlocked false (clearPortConds f (s.onPort f fun q =>
    { q.abandon with chA := q.chA.unmuted, chB := q.chB.unmuted, lastSpan := none, lossTimer := none })))

theorem disablePort_eq : disablePort f s =
    judgeHealth f (changeConverter f ((disabledPort f s).feed f).conv.enterIdle (disabledPort f s)) := rfl

theorem disabledPort_conv : ((disabledPort f s).feed f).conv = (s.feed f).conv := by
  have kept : (view (disabledPort f s) f).conv = (view s f).conv := by
    unfold disabledPort
    rw [view_setFeedCond, view_setFeedCond, view_clearPortConds, view_onPort]
    rfl
  exact (view_conv (disabledPort f s) f).symm.trans (kept.trans (view_conv s f))

theorem view_disablePort : view (disablePort f s) f = (view s f).disabled := by
  rw [disablePort_eq, view_judgeHealth, view_changeConverter, disabledPort_conv]
  unfold disabledPort
  rw [view_setFeedCond, view_setFeedCond, view_clearPortConds, view_onPort]
  rfl

end

/-! ## Health where a port is turned on (R62) -/

section
variable {f : FeedId} {s : State}

theorem Up.clearPortConds (h : Up f s) : Up f (clearPortConds f s) ∧ Unmoved s (clearPortConds f s) := by
  have lost := h.setFeedCond_false .feedLost
  have unknown := lost.setFeedCond_false .rateUnknown
  exact ⟨unknown.setFeedCond_false .feedErrors,
    (setFeedCond_false_up (h _)).trans ((setFeedCond_false_up (lost _)).trans (setFeedCond_false_up (unknown _)))⟩

/-- An enable with no entry that holds the feed unhealthy makes it healthy. -/
theorem enablePort_gained (up : Up f s) (on : (s.feed f).port.enable = true) (was : (s.feed f).healthy = false) :
    HealthGained f s (enablePort f s) := by
  have stored : Unmoved s (enabledPort f s) := (Unmoved.refl s).onPort f _
  have here : Up f (enabledPort f s) := up.congr fun _ => rfl
  obtain ⟨up, conds⟩ := here.clearPortConds
  obtain ⟨up, conv⟩ : Up f (enabling f s) ∧ Unmoved (clearPortConds f (enabledPort f s)) (enabling f s) :=
    up.changeConverter (enterSearch_state ((enabledPort f s).feed f).conv)
  have unmoved := stored.trans (conds.trans conv)
  have enable : ((enabling f s).feed f).port.enable = true := by
    have kept : (view (enabling f s) f).port.enable = (view s f).port.enable := by
      unfold enabling
      rw [view_changeConverter, view_clearPortConds]
      unfold enabledPort
      rw [view_onPort]
      rfl
    rw [← view_port, kept]
    exact on
  rw [enablePort_eq]
  have test : healthTest (enabling f s) f = true := (healthTest_up up).trans enable
  have unhealthy : ((enabling f s).feed f).healthy = false := (unmoved.healthy f).trans was
  exact HealthGained.congr unmoved (.refl (judgeHealth f (enabling f s))) (judgeHealth_gained test unhealthy)

/-- An entry that falls goes on falling where a condition of its feed ends. -/
theorem Ill.falls {j : FeedCond} (ill : Ill f j s) (falling : (s.entry (feedEntry f j)).state = .falling) (k : FeedCond) :
    Ill f j (setFeedCond f k false s) ∧ ((setFeedCond f k false s).entry (feedEntry f j)).state = .falling ∧
      Unmoved s (setFeedCond f k false s) := by
  obtain ⟨ill, unmoved, entry⟩ := ill.setFeedCond_false (k := k) (.inr falling)
  exact ⟨ill, by rw [entry]; exact falling, unmoved⟩

/-- An enable with a FAILOVER entry that still falls leaves the feed unhealthy. -/
theorem enablePort_lost {j : FeedCond} (ill : Ill f j s) (falling : (s.entry (feedEntry f j)).state = .falling) :
    HealthLost f s (enablePort f s) := by
  have stored : Unmoved s (enabledPort f s) := (Unmoved.refl s).onPort f _
  have here : Ill f j (enabledPort f s) := by
    refine ⟨ill.judged.congr (stored.healthy f) ?_ fun _ => rfl, ill.down⟩
    unfold enabledPort
    rw [port_of_view (view_onPort ..)]
    rfl
  obtain ⟨ill, falling, lost⟩ := here.falls falling .feedLost
  obtain ⟨ill, falling, unknown⟩ := ill.falls falling .rateUnknown
  obtain ⟨ill, falling, errors⟩ := ill.falls falling .feedErrors
  obtain ⟨ill, conv⟩ : Ill f j (enabling f s) ∧ Unmoved (clearPortConds f (enabledPort f s)) (enabling f s) :=
    ill.changeConverter (enterSearch_state ((enabledPort f s).feed f).conv) (.inr falling)
  have conds : Unmoved (enabledPort f s) (clearPortConds f (enabledPort f s)) := lost.trans (unknown.trans errors)
  rw [enablePort_eq]
  exact HealthLost.congr (stored.trans (conds.trans conv)) (.refl (judgeHealth f (enabling f s)))
    (judgeHealth_lost ill.test)

/-! ## Health where a port is turned off (R62) -/

/-- A feed with its enable off has been judged unhealthy, or is as it was. -/
structure Off (f : FeedId) (s t : State) : Prop where
  off : (t.feed f).port.enable = false
  judged : Unmoved s t ∨ HealthLost f s t

theorem healthTest_off (h : (s.feed f).port.enable = false) : healthTest s f = false := by
  unfold healthTest; rw [h]; rfl

namespace Off
variable {t u : State}

theorem unmoved (h : Off f s t) (g : Unmoved t u) (off : (u.feed f).port.enable = false) : Off f s u := by
  obtain ⟨_, kept | lost⟩ := h
  · exact ⟨off, .inl (kept.trans g)⟩
  · exact ⟨off, .inr (.congr (.refl s) g lost)⟩

theorem judgeHealth (h : Off f s t) : HealthLost f s (judgeHealth f t) := by
  have test := healthTest_off h.off
  obtain ⟨_, kept | lost⟩ := h
  · exact .congr kept (.refl _) (judgeHealth_lost test)
  · rw [judgeHealth_of_eq (lost.1.trans test.symm)]; exact lost

theorem setFeedCond (h : Off f s t) (k : FeedCond) (v : Bool) : Off f s (setFeedCond f k v t) := by
  have off : ((Machine.setFeedCond f k v t).feed f).port.enable = false := by rw [setFeedCond_enable]; exact h.off
  have followed : Off f s (follow (feedEntry f k) v t).1 := by
    refine h.unmoved ((Unmoved.refl t).follow f k v) ?_
    rw [State.feed_congr (EntryEffect.follow (feedEntry f k) v t).feeds]
    exact h.off
  refine ⟨off, ?_⟩
  obtain same | judged := setFeedCond_judged f k v t
  · rw [same]; exact followed.judged
  · rw [judged]; exact .inr followed.judgeHealth

theorem setFeed (h : Off f s t) {x : Feed} (healthy : x.healthy = (t.feed f).healthy)
    (enable : x.port.enable = (t.feed f).port.enable) : Off f s (t.setFeed f x) :=
  h.unmoved ((Unmoved.refl t).setFeed healthy) (by rw [State.setFeed_feed_self, enable]; exact h.off)

theorem changeConverter (h : Off f s t) (c : Converter) : Off f s (changeConverter f c t) := by
  have set := (h.setFeed (x := { t.feed f with conv := c }) rfl rfl).setFeedCond .srcUnlocked (c.state == .track)
  have kept := changeConverter_feedsSame f c t
  refine set.unmoved ?_ (by rw [kept.feed f]; exact set.off)
  unfold Machine.changeConverter
  dsimp only
  split
  · exact .refl _
  · exact (Unmoved.refl _).classEvent ..

end Off

/-- A disable makes the feed unhealthy. -/
theorem disablePort_lost (off : (s.feed f).port.enable = false) : HealthLost f s (disablePort f s) := by
  have here : Off f s (s.onPort f fun q =>
      { q.abandon with chA := q.chA.unmuted, chB := q.chB.unmuted, lastSpan := none, lossTimer := none }) := by
    rw [State.onPort_eq]
    exact Off.setFeed ⟨off, .inl (.refl s)⟩ rfl rfl
  have conds : Off f s (disabledPort f s) :=
    ((((here.setFeedCond .feedLost false).setFeedCond .rateUnknown false).setFeedCond .feedErrors false).setFeedCond
      .srcUnlocked false).setFeedCond .srcSlip false
  rw [disablePort_eq]
  exact (conds.changeConverter _).judgeHealth

end

/-! ## FEED_CONFIG that moves enable (O15) -/

/-- A reply leaves all but itself, the receiver and the pins. -/
theorem replying_unmoved (k : Kind) (b : List Byte) (s : State) : Unmoved s (replying k b s) :=
  .ofProgs rfl (fun _ => rfl) (fun _ => rfl) fun _ => rfl

theorem replying_grows (k : Kind) (b : List Byte) (s : State) : Grows s (replying k b s) := .same rfl rfl

theorem exec_feedConfig {s : State} {m : Msg} {f : FeedId} {en par val : Bool} {ex : Option RateClass} (h : Commands s m)
    (body : m.body = [BitVec.ofNat 8 f.val, BitVec.ofNat 8 en.toNat, BitVec.ofNat 8 (classCode ex),
      BitVec.ofNat 8 par.toNat, BitVec.ofNat 8 val.toNat]) : exec (.feedConfig m) s =
    .next (replying .feedConfig (0 :: (bool1 en ++ byte1 (classCode ex) ++ bool1 par ++ bool1 val))
      (storeFeedConfig f en ex par val s)) := by
  refine exec_taken (c := .feedConfig m) rfl rfl h (by rw [body]; rfl) ?_
  simp only [body, evalKind, evalFeedConfig, byteAt_zero, byteAt_succ, feedIndex_val, onOffOfCode_val, classOfCode_val,
    enumField]
  rfl

section
variable {s : State} {f : FeedId} {en par val : Bool} {ex : Option RateClass}

theorem configurePort_unmoved : Unmoved s (configurePort f en ex par val s) := (Unmoved.refl s).onPort f _

theorem storeFeedConfig_effect (f : FeedId) (en : Bool) (ex : Option RateClass) (par val : Bool) (s : State) :
    FeedEffect f s (storeFeedConfig f en ex par val s) :=
  (FeedEffect.onPort f s _).trans (storeFeedConfig_steps f en ex par val s).effect

theorem disablePort_reported {k : RateClass} (cls : (s.feed f).conv.cls = some k) :
    Reported .feedClass (.feed f) [BitVec.ofNat 8 k.code, 0] s (disablePort f s) := by
  have conds : Beside s (disabledPort f s) :=
    (Beside.onPort f _ s).trans ((Beside.setFeedCond f .feedLost false _).trans
      ((Beside.setFeedCond f .rateUnknown false _).trans ((Beside.setFeedCond f .feedErrors false _).trans
        ((Beside.setFeedCond f .srcUnlocked false _).trans (.setFeedCond f .srcSlip false _)))))
  have conv := disabledPort_conv f s
  have told := changeConverter_reported (f := f) (c := ((disabledPort f s).feed f).conv.enterIdle) (s := disabledPort f s)
    (by rw [conv, cls]; exact fun h => nomatch h)
  rw [disablePort_eq]
  refine .congr conds.grows conds.counter ?_ (AlarmSteps.refl.judgeHealth f).grows
  rw [conv, cls] at told
  rw [conv]
  exact told

end

/-- Settles O15: the view of the feed, its health by what its entries are, and its class announced. -/
theorem feedConfigSwitchesPort : Obligations.FeedConfigSwitchesPort := by
  refine fun s m f ex par val h => ⟨fun off body => ?_, fun on body => ?_⟩
  · have effect := storeFeedConfig_effect f true ex par val s
    have stored : storeFeedConfig f true ex par val s = enablePort f (configurePort f true ex par val s) := by
      rw [storeFeedConfig_eq, off, if_neg (by decide), if_pos rfl]
    have held : view (storeFeedConfig f true ex par val s) f = (view (configurePort f true ex par val s) f).enabled := by
      rw [stored, view_enablePort]
    have settings : view (configurePort f true ex par val s) f = { view s f with port :=
      { (s.feed f).port with enable := true, expected := ex, parityCheck := par, honourValidity := val } } := view_onPort ..
    rw [settings] at held
    have enable : ((configurePort f true ex par val s).feed f).port.enable = true := by rw [port_of_view settings]
    have was (h : (s.feed f).healthy = false) : ((configurePort f true ex par val s).feed f).healthy = false :=
      (configurePort_unmoved.healthy f).trans h
    refine ⟨_, exec_feedConfig (en := true) h body, port_of_view held, conv_of_view held, feedCond_of_view held _,
      feedCond_of_view held _, feedCond_of_view held _, fun unhealthy quiet => ?_, fun unhealthy falling => ?_,
      effect.others, effect.runsKept, effect.quiet.store, effect.quiet.freePages, effect.quiet.blockCounter⟩
    · have gained := enablePort_gained (s := configurePort f true ex par val s) (up_iff.2 quiet) enable (was unhealthy)
      rw [← stored] at gained
      exact .congr configurePort_unmoved (replying_unmoved ..) gained
    · obtain ⟨j, action, falls⟩ := falling
      have ill : Ill f j (configurePort f true ex par val s) := by
        have down : ((configurePort f true ex par val s).entry (feedEntry f j)).down = true := by
          change (s.entry (feedEntry f j)).down = true
          simp [Entry.down, action, falls]
        exact ⟨(was unhealthy).trans (healthTest_down down).symm, down⟩
      have lost := enablePort_lost ill falls
      rw [← stored] at lost
      exact .congr configurePort_unmoved (replying_unmoved ..) lost
  · have effect := storeFeedConfig_effect f false ex par val s
    have stored : storeFeedConfig f false ex par val s = disablePort f (configurePort f false ex par val s) := by
      rw [storeFeedConfig_eq, on, if_neg (by decide), if_neg (by decide)]
    have held : view (storeFeedConfig f false ex par val s) f = (view (configurePort f false ex par val s) f).disabled := by
      rw [stored, view_disablePort]
    have settings : view (configurePort f false ex par val s) f = { view s f with port :=
      { (s.feed f).port with enable := false, expected := ex, parityCheck := par, honourValidity := val } } := view_onPort ..
    rw [settings] at held
    have disabled : ((configurePort f false ex par val s).feed f).port.enable = false := by rw [port_of_view settings]
    refine ⟨_, exec_feedConfig (en := false) h body, port_of_view held, conv_of_view held, fun k => ?_, ?_, fun k cls => ?_,
      effect.others, effect.runsKept, effect.quiet.store, effect.quiet.freePages, effect.quiet.blockCounter⟩
    · cases k <;> exact feedCond_of_view held _
    · have lost := disablePort_lost disabled
      rw [← stored] at lost
      exact .congr configurePort_unmoved (replying_unmoved ..) lost
    · have told := disablePort_reported (s := configurePort f false ex par val s) (k := k)
        ((congrArg Converter.cls (conv_of_view settings)).trans cls)
      rw [← stored] at told
      exact .congr (.same rfl rfl) rfl told (replying_grows ..)

end Sys2Proof.Machine
end

section
/-! PROOFS. Messages that store what they carry: the failover settings, a reserve, the configuration and the
acknowledgement of an alarm entry. -/
namespace Sys2Proof.Machine

/-! ## How a message is answered -/

/-- An addressed command that fails a test of its own is refused, and changes nothing. -/
theorem exec_denied {c : Instr} {k : Kind} {m : Msg} {s : State} {st : Status} (kind : c.kind = some k)
    (message : c.message = some m) (h : Commands s m) (length : k.lengthOk m.body.length = true)
    (error : evalKind k false m.body s = .error st) : exec c s = .next (replying k [BitVec.ofNat 8 st.code] s) :=
  exec_refused kind message h ((judge_eval h length).trans error)

/-- An addressed command that passes its tests is answered OK, or ADJUSTED where a clamp was made. -/
theorem exec_clamped {c : Instr} {k : Kind} {m : Msg} {s t : State} {adjusted : Bool} {fields : List Byte}
    (kind : c.kind = some k) (message : c.message = some m) (h : Commands s m)
    (length : k.lengthOk m.body.length = true)
    (ok : evalKind k false m.body s = .ok { adjusted := adjusted, fields := fields, after := t }) :
    exec c s = .next (replying k ((if adjusted then 1 else 0) :: fields) t) := by
  refine (exec_ok kind message h length ok).trans ?_
  cases adjusted <;> rfl

/-- A natural number is stored as the nearer end of its range where it is outside. -/
theorem contField_nat (lo hi n : Nat) (h : lo ≤ hi) :
    contField lo hi n = ⟨(min (max n lo) hi : Nat), decide (n ≠ min (max n lo) hi)⟩ := by
  unfold contField clampInt
  congr 1
  · omega
  · rw [decide_eq_decide]; omega

/-- A natural number in a range from 0 is stored as sent or as the end of the range, whichever is less. -/
theorem contField_upTo (hi n : Nat) : contField 0 hi n = ⟨(min n hi : Nat), decide (hi < n)⟩ := by
  unfold contField clampInt
  congr 1
  · omega
  · rw [decide_eq_decide]; omega

/-- The reply of a message that leaves the unit's address. -/
theorem replying_reply {s t : State} (kept : t.unitAddr = s.unitAddr) (k : Kind) (body : List Byte) :
    (replying k body t).reply = some (replyFrame s.unitAddr (BitVec.ofNat 8 k.code) body) := by rw [← kept]; rfl

/-! ## FAILOVER_CONFIG (R79) -/

section
variable {s : State} {m : Msg} {p : ProgId} {auto reset : Bool} {n : Nat}

theorem evalFailoverConfig_legal (small : n < 65536) (body : m.body =
      [BitVec.ofNat 8 p.val, BitVec.ofNat 8 auto.toNat] ++ byte2 n ++ [BitVec.ofNat 8 reset.toNat]) :
    evalFailoverConfig m.body s = (require ((s.prog p).state != .undefined) .wrongState).bind fun _ => .ok
      { adjusted := decide (n ≠ min (max n 10) 6000)
        fields := bool1 auto ++ byte2 (min (max n 10) 6000) ++ bool1 reset
        after := s.onProg p (·.storeFailover auto (min (max n 10) 6000) reset) } := by
  have prog : byteAt m.body 0 = (BitVec.ofNat 8 p.val).toNat := by rw [body]; rfl
  have first : byteAt m.body 1 = (BitVec.ofNat 8 auto.toNat).toNat := by rw [body]; rfl
  have last : byteAt m.body 4 = (BitVec.ofNat 8 reset.toNat).toNat := by rw [body]; rfl
  have word : wordAt m.body 2 = n := by rw [body]; simp [Nat.mod_eq_of_lt small]
  have hold : contField 10 6000 (n : Int) = _ := contField_nat 10 6000 n (by decide)
  simp only [evalFailoverConfig, prog, first, last, word, hold, progIndex_val, onOffOfCode_val, enumField, bind,
    Except.bind]
  rfl

theorem storeFailover_eq (g : Program) (auto : Bool) (hold : Nat) (reset : Bool) : g.storeFailover auto hold reset =
    { g with
      autoReturn := auto, returnHold := hold, resetOnSwap := reset
      returnTimer := if auto then g.returnTimer else 0, returnFell := if auto then g.returnFell else false } := by
  cases auto <;> rfl

/-- Settles O33, by the two states of the program. -/
theorem failoverConfigStores : Obligations.FailoverConfigStores := by
  intro s m p auto reset n h small body
  have length : Kind.failoverConfig.lengthOk m.body.length = true := by rw [body]; rfl
  have eval := evalFailoverConfig_legal (s := s) small body
  refine ⟨fun defined => ?_, fun undefined => ?_⟩
  · rw [bne_iff_ne.2 defined] at eval
    refine (exec_clamped (c := .failoverConfig m) rfl rfl h length eval).trans ?_
    rw [State.onProg, storeFailover_eq]
    by_cases clamped : n = min (max n 10) 6000
    · rw [if_neg (by simpa using clamped), if_pos clamped]; rfl
    · rw [if_pos (by simpa using clamped), if_neg clamped]; rfl
  · rw [undefined] at eval
    exact exec_denied (c := .failoverConfig m) rfl rfl h length eval

end

/-! ## DELAY_RESERVE (R115) -/

theorem evalDelayReserve_eq {s : State} {m : Msg} {p : ProgId} {b : Byte} (body : m.body = [BitVec.ofNat 8 p.val, b]) :
    evalDelayReserve m.body s = (require ((s.prog p).state == .defined) .wrongState).bind fun _ =>
      (require (decide ((s.prog p).slots * min b.toNat 94 ≤ pageRoom s p)) .noRoom).bind fun _ => .ok
        { adjusted := decide (94 < b.toNat)
          fields := byte1 (min b.toNat 94) ++ byte2 ((rebuildChain p (min b.toNat 94) s).prog p).delay.chain.length ++
            byte2 (rebuildChain p (min b.toNat 94) s).freePages.length
          after := rebuildChain p (min b.toNat 94) s } := by
  have pages : contField 0 94 (b.toNat : Int) = _ := contField_upTo 94 b.toNat
  simp only [body, evalDelayReserve, byteAt_zero, byteAt_succ, progIndex_val, pages, bind, Except.bind]
  rfl

/-- Settles O42, by the tests of the message. -/
theorem delayReserveRebuildsChain : Obligations.DelayReserveRebuildsChain := by
  intro s m p b h body
  have length : Kind.delayReserve.lengthOk m.body.length = true := by rw [body]; rfl
  have eval := evalDelayReserve_eq (s := s) body
  have room : pageRoom s p = (s.freePages ++ (s.prog p).delay.chain).length := List.length_append.symm
  rw [room] at eval
  refine ⟨fun other => ?_, fun defined fits => ?_, fun defined large => ?_⟩
  · rw [beq_eq_false_iff_ne.2 other] at eval
    exact exec_denied (c := .delayReserve m) rfl rfl h length eval
  · rw [defined, decide_eq_true fits] at eval
    refine (exec_clamped (c := .delayReserve m) rfl rfl h length eval).trans ?_
    have held : ((rebuildChain p (min b.toNat 94) s).prog p).delay.chain.length = (s.prog p).slots * min b.toNat 94 := by
      rw [rebuildChain_prog_self]
      exact (List.length_take).trans (Nat.min_eq_left fits)
    have free : (rebuildChain p (min b.toNat 94) s).freePages.length =
        (s.freePages ++ (s.prog p).delay.chain).length - (s.prog p).slots * min b.toNat 94 := List.length_drop
    rw [held, free]
    by_cases clamped : b.toNat ≤ 94
    · rw [if_neg (by simpa using clamped), if_pos clamped]; rfl
    · rw [if_pos (by simpa using clamped), if_neg clamped]; rfl
  · rw [defined, decide_eq_false (by omega)] at eval
    exact exec_denied (c := .delayReserve m) rfl rfl h length eval

/-! ## ALARM_CONFIG (R139, R140, R143) -/

/-- A change of an entry's configuration reaches, past the entry, what a change of a feed's health reaches. -/
theorem storeEntryConfig_effect (e : EntryId) (c : EntryConfig) (s : State) :
    AlarmEffect (s.setEntry e ((s.entry e).configured c)) (storeEntryConfig e c s) := by
  unfold storeEntryConfig
  dsimp only
  split
  · split
    · exact .judgeHealth ..
    all_goals exact .refl _
  · exact .refl _

/-- The conditions, the feeds' health and the runs apart, an alarm effect leaves the programs and the feeds. -/
theorem AlarmEffect.runsKept {s t : State} (h : AlarmEffect s t) : RunsKept s t := fun p => by
  rw [h.prog p]; exact ⟨rfl, rfl, rfl, rfl, rfl, rfl, rfl, rfl, rfl⟩

theorem AlarmEffect.port {s t : State} (h : AlarmEffect s t) (f : FeedId) : (t.feed f).port = (s.feed f).port := by
  rw [h.feed f]

theorem AlarmEffect.conv {s t : State} (h : AlarmEffect s t) (f : FeedId) : (t.feed f).conv = (s.feed f).conv := by
  rw [h.feed f]

/-- Settles O47: the entry by `storeEntryConfig_entry_self`, and the rest by what a feed's health reaches. -/
theorem alarmConfigStores : Obligations.AlarmConfigStores := by
  intro s m e sev up down act h hup hdown body
  have length : Kind.alarmConfig.lengthOk m.body.length = true := by rw [body]; rfl
  refine ⟨fun legal => ?_, fun failover illegal => ?_⟩
  · have effect := storeEntryConfig_effect e ⟨sev, min up 255, min down 255, act⟩ s
    have entry := storeEntryConfig_entry_self e ⟨sev, min up 255, min down 255, act⟩ s
    refine ⟨_, exec_clamped (c := .alarmConfig m) rfl rfl h length (evalAlarmConfig_legal s hup hdown legal body),
      by rw [replying_entry, entry]; rfl, by rw [replying_entry, entry]; rfl, by rw [replying_entry, entry]; rfl,
      by rw [replying_entry, entry]; rfl, fun d other => ?_, ?_, effect.runsKept, effect.quiet.store, fun f => ?_⟩
    · exact (effect.config d).trans (congrArg Entry.config (State.setEntry_entry_ne other ..))
    · refine (replying_reply (s := s) effect.quiet.unitAddr ..).trans ?_
      have upTo (n : Nat) : (contField 0 255 (n : Int)).adjusted = decide (255 < n) :=
        congrArg Clamped.adjusted (contField_upTo 255 n)
      rw [upTo, upTo]
      by_cases clamped : up ≤ 255 ∧ down ≤ 255
      · rw [if_neg (by simp; omega), if_pos clamped]; rfl
      · rw [if_pos (by simp; omega), if_neg clamped]; rfl
    · exact ⟨effect.port f, effect.conv f⟩
  · have entry : byteAt m.body 0 = (BitVec.ofNat 8 e.val).toNat := by rw [body]; rfl
    have severity : byteAt m.body 1 = (BitVec.ofNat 8 sev.code).toNat := by rw [body]; rfl
    have action : byteAt m.body 6 = (BitVec.ofNat 8 act.code).toNat := by rw [body]; rfl
    have refused : evalAlarmConfig m.body s = .error .badValue := by
      simp only [evalAlarmConfig, entry, severity, action, entryIndex_val, severityOfCode_val, actionOfCode_val,
        enumField, bind, Except.bind, illegal, failover]
      rfl
    exact exec_denied (c := .alarmConfig m) rfl rfl h length refused

/-! ## ALARM_ACK (R141) -/

theorem acknowledge_entry {l : List EntryId} (once : l.Nodup) (s : State) (e : EntryId) :
    (forEach l (fun e t => t.setEntry e (t.entry e).acked) s).entry e =
      if e ∈ l then (s.entry e).acked else s.entry e := by
  induction l generalizing s with
  | nil => rfl
  | cons d l ih =>
    obtain ⟨fresh, once⟩ := List.nodup_cons.1 once
    refine (ih once _).trans ?_
    by_cases same : e = d
    · subst same; simp [fresh]
    · simp [same, State.setEntry_entry_ne same]

/-- Settles O49: one entry by the body of the message, all of them by their list. -/
theorem alarmAckAcknowledges : Obligations.AlarmAckAcknowledges := by
  refine fun s m h => ⟨fun e body => ?_, fun body => ?_⟩
  · have byte : (BitVec.ofNat 8 e.val).toNat = e.val := by simp; omega
    have one : ackNames e.val = .ok [e] := by
      rw [ackNames, if_neg (by omega), ← byte, entryIndex_val]
    refine (exec_taken (c := .alarmAck m) (t := s.setEntry e (s.entry e).acked) rfl rfl h (by rw [body]; rfl)
      (by simp only [body, evalKind, evalAlarmAck, byteAt_zero, byte, one]; rfl)).trans ?_
    cases counted : (s.entry e).latched && !(s.entry e).acknowledged <;> simp [counted, Entry.acked, byte1]
  · have all : ackNames (0xFF : Byte).toNat = .ok allEntries := rfl
    have eval : evalAlarmAck m.body s = .ok
        { fields := byte1 0xFF ++ byte1 (allEntries.filter fun e => (s.entry e).latched && !(s.entry e).acknowledged).length
          after := forEach allEntries (fun e t => t.setEntry e (t.entry e).acked) s } := by
      simp only [body, evalAlarmAck, byteAt_zero, all, bind, Except.bind]; rfl
    have done := exec_taken (c := .alarmAck m) rfl rfl h (by rw [body]; rfl) eval
    have quiet := forEach_proj (f := fun e (t : State) => t.setEntry e (t.entry e).acked)
      (π := fun t => (t.feeds, t.progs, t.conds, t.notices, t.store, t.unitAddr)) (fun _ _ => rfl) allEntries s
    have entry (e : EntryId) := acknowledge_entry (List.nodup_finRange 137) s e
    simp only [Prod.mk.injEq] at quiet
    obtain ⟨feeds, progs, conds, notices, store, addr⟩ := quiet
    change ∀ e, (forEach allEntries _ s).entry e = _ at entry
    generalize forEach allEntries (fun e t => t.setEntry e (t.entry e).acked) s = t at *
    exact ⟨_, done, fun e => (entry e).trans (if_pos (List.mem_finRange e)), replying_reply addr .., feeds, progs, conds,
      notices, store⟩

end Sys2Proof.Machine
end

section
/-! PROOFS. Program messages: the ends of the output fades, PROG_DEFINE and PROG_CLEAR. -/
namespace Sys2Proof.Machine

/-! ## Conditions made false -/

/-- A condition of a program made false reaches no program record, SILENCE included. -/
theorem setProgCond_false_prog (p q : ProgId) (k : ProgCond) (s : State) :
    (setProgCond p k false s).prog q = s.prog q := by
  by_cases silence : k = .silence
  · rw [silence, setSilence_false, follow_prog]
  · exact setProgCond_prog silence ..

theorem setProgCond_false_progCond (p q : ProgId) (k j : ProgCond) (s : State) :
    (setProgCond p k false s).progCond q j = if q = p ∧ j = k then false else s.progCond q j := by
  by_cases silence : k = .silence
  · rw [silence, setSilence_false]
    unfold State.progCond
    rw [follow_cond]
    by_cases here : q = p ∧ j = .silence
    · obtain ⟨rfl, rfl⟩ := here; simp
    · have : progEntry q j ≠ progEntry p .silence := fun e => here (progEntry_inj e)
      simp [here, this]
  · exact setProgCond_progCond silence ..

theorem clearMeasureConds_prog (p q : ProgId) (s : State) : (clearMeasureConds p s).prog q = s.prog q := by
  simp only [clearMeasureConds, setProgCond_false_prog]

theorem clearRunConds_prog (p q : ProgId) (s : State) : (clearRunConds p s).prog q = s.prog q := by
  simp only [clearRunConds, clearMeasureConds_prog, setProgCond_false_prog]

/-- The end of a run leaves no condition of the program true. -/
theorem clearRunConds_progCond (p : ProgId) (k : ProgCond) (s : State) : (clearRunConds p s).progCond p k = false := by
  cases k <;> simp [clearRunConds, clearMeasureConds, setProgCond_false_progCond]

/-! ## The ends of the output fades (R52, R54) -/

section
variable (p : ProgId) (s : State)

theorem endStopFade_prog : (endStopFade p s).prog p = (s.prog p).runEnded := by
  unfold endStopFade
  rw [pushNotice_prog, clearRunConds_prog, State.onProg, State.setProg_prog_self]

theorem endStopFade_progCond (k : ProgCond) : (endStopFade p s).progCond p k = false := by
  unfold endStopFade State.progCond
  rw [pushNotice_cond]
  exact clearRunConds_progCond ..

/-- PROGRAM_STOPPED is pushed last: it is the newest notice, or its program joins the missed set. -/
theorem endStopFade_reported : StopReported p (s.prog p).currentRank s (endStopFade p s) := by
  have cleared := (ProgEffect.onProg p s Program.runEnded).trans (.clearRunConds p _)
  have counter := cleared.quiet.blockCounter
  unfold endStopFade
  generalize clearRunConds p (s.onProg p Program.runEnded) = u at counter
  by_cases room : u.notices.length < Config.queueLimit
  · refine .inl ?_
    rw [pushNotice_joins room, ← counter]
    exact List.getLast?_concat
  · refine .inr ?_
    rw [pushNotice_lost room]
    refine ⟨Nat.le_of_not_lt room, ?_⟩
    have code : 16 + p.val = (Source.program p).code := rfl
    rw [code, BitVec.getLsbD_or, getLsbD_one_shiftLeft (Source.code_lt _) (Source.code_lt _)]
    simp

end

/-- Settles O30: the fade-in by its record, the stop fade by `endStopFade`. -/
theorem outputFadesEnd : Obligations.OutputFadesEnd := by
  refine fun s p live => ⟨fun fading full => ?_, fun stopping empty => ?_⟩
  · refine (onUnit_running live).trans ?_
    have due : startFadeIsDue s p = true := by simp [startFadeIsDue, fading, full, Config.fadeFull]
    rw [if_pos due]
    rfl
  · have due : stopFadeIsDue s p = true := by simp [stopFadeIsDue, stopping, empty]
    have done : exec (.stopFadeEnd p) s = .next (judgePins (endStopFade p s)) := by
      refine (onUnit_running live).trans ?_
      rw [if_pos due]
    have effect := ProgEffect.endStopFade p s
    have record := endStopFade_prog p s
    have conds := endStopFade_progCond p s
    have told := endStopFade_reported p s
    generalize endStopFade p s = t at *
    refine ⟨_, done, ?_⟩
    rw [judgePins_prog, record]
    exact ⟨rfl, rfl, rfl, rfl, rfl, empty, rfl, rfl, rfl, rfl, rfl, rfl, rfl, rfl, conds, told, effect.prog, effect.feeds,
      effect.quiet.store⟩

/-! ## Lists read from a body -/

/-- A list read place by place. -/
theorem mapM_range_eq {α : Type} {g : Nat → Option α} {l : List α} (h : ∀ k x, l[k]? = some x → g k = some x) :
    (List.range l.length).mapM g = some l := by
  induction l generalizing g with
  | nil => rfl
  | cons x l ih =>
    have rest : (List.range l.length).mapM (fun k => g (k + 1)) = some l := ih fun k y hk => h (k + 1) y hk
    rw [List.length_cons, List.range_succ_eq_map, List.mapM_cons, h 0 x rfl, List.mapM_map]
    simp [Function.comp_def, rest]

/-- A list shorter than its field is filled up. -/
theorem padTo_of_le {α : Type} {n : Nat} {fill : α} {l : List α} (h : l.length ≤ n) :
    padTo n fill l = l ++ List.replicate (n - l.length) fill := by
  unfold padTo
  rw [List.take_append, List.take_of_length_le h, List.take_replicate]
  congr 2
  omega

/-! ## PROG_DEFINE (R44) -/

section
variable {s : State} {m : Msg} {p : ProgId}

theorem readWeights_eq {ws : List WeightCode} {a b : Byte} (all : ws.length = 8) :
    readWeights ([a, b] ++ ws.flatMap fun w => byte1 w.code) = some ws := by
  unfold readWeights
  rw [← all]
  refine mapM_range_eq fun k w hk => ?_
  have bytes : (ws.flatMap fun w => byte1 w.code) = ws.map fun w => BitVec.ofNat 8 w.code := List.map_eq_flatMap.symm
  have place : byteAt ([a, b] ++ ws.flatMap fun w => byte1 w.code) (2 + k) = (BitVec.ofNat 8 w.code).toNat := by
    rw [bytes, Nat.add_comm]
    simp [byteAt, hk]
  rw [place, weightOfCode_val]

theorem weightBytes_take {ws : List WeightCode} (all : ws.length = 8) {c : Nat} (h : c ≤ 8) :
    weightBytes (ws.take c) = (ws.take c).flatMap (fun w => byte1 w.code) ++ List.replicate (8 - c) 0 := by
  have long : ((ws.take c).flatMap fun w => byte1 w.code).length = c := by
    simp [length_flatMap_const (n := 1) (fun w : WeightCode => byte1_length w.code)]; omega
  unfold weightBytes
  rw [padTo_of_le (by omega), long]

theorem evalProgDefine_legal {b : Byte} {ws : List WeightCode} (all : ws.length = 8)
    (body : m.body = [BitVec.ofNat 8 p.val, b] ++ ws.flatMap (fun w => byte1 w.code)) :
    evalProgDefine m.body s = (require (s.prog p).idle .wrongState).bind fun _ => .ok
      { adjusted := decide (b.toNat ≠ min (max b.toNat 1) 8)
        fields := byte1 (min (max b.toNat 1) 8) ++ weightBytes (ws.take (min (max b.toNat 1) 8))
        after := defineProgram p (min (max b.toNat 1) 8) (ws.take (min (max b.toNat 1) 8)) s } := by
  have prog : byteAt m.body 0 = (BitVec.ofNat 8 p.val).toNat := by rw [body]; rfl
  have count : byteAt m.body 1 = b.toNat := by rw [body]; rfl
  have codes : readWeights m.body = some ws := by rw [body]; exact readWeights_eq all
  have slots : contField 1 8 (b.toNat : Int) = _ := contField_nat 1 8 b.toNat (by decide)
  simp only [evalProgDefine, prog, count, codes, slots, progIndex_val, enumField, bind, Except.bind]
  rfl

theorem defineProgram_prog (p : ProgId) (c : Nat) (ws : List WeightCode) (s : State) :
    (defineProgram p c ws s).prog p =
      { Program.redefined c ws with
        swap := (s.prog p).swap, outLevel := (s.prog p).outLevel, outDir := (s.prog p).outDir } := by
  unfold defineProgram
  rw [clearMeasureConds_prog, State.onProg, State.setProg_prog_self, returnPages_prog_self]

/-- Past the pages it returns, a PROG_DEFINE is the program's own work. -/
theorem defineProgram_effect (p : ProgId) (c : Nat) (ws : List WeightCode) (s : State) :
    ProgEffect p (returnPages p s) (defineProgram p c ws s) := (ProgEffect.onProg ..).trans (.clearMeasureConds p _)

/-- Settles O24, by the states of the program. -/
theorem progDefineStartsAgain : Obligations.ProgDefineStartsAgain := by
  intro s m p b ws h all body
  have length : Kind.progDefine.lengthOk m.body.length = true := by
    rw [body, List.length_append, length_flatMap_const (n := 1) (fun w : WeightCode => byte1_length w.code), all]; rfl
  have eval := evalProgDefine_legal (s := s) all body
  refine ⟨fun idle => ?_, fun active => ?_⟩
  · have taken : (s.prog p).idle = true := by obtain h | h := idle <;> simp [Program.idle, h]
    rw [taken] at eval
    have effect := defineProgram_effect p (min (max b.toNat 1) 8) (ws.take (min (max b.toNat 1) 8)) s
    have record := defineProgram_prog p (min (max b.toNat 1) 8) (ws.take (min (max b.toNat 1) 8)) s
    have pages := effect.quiet.freePages.trans (returnPages_freePages p s)
    have done := exec_clamped (c := .progDefine m) rfl rfl h length eval
    generalize defineProgram p (min (max b.toNat 1) 8) (ws.take (min (max b.toNat 1) 8)) s = t at *
    refine ⟨_, done, record, pages, ?_, fun q hq => (effect.prog q hq).trans (returnPages_prog_ne hq s), effect.feeds,
      effect.quiet.store⟩
    · refine (replying_reply (s := s) effect.quiet.unitAddr ..).trans ?_
      rw [weightBytes_take all (by omega)]
      by_cases clamped : b.toNat = min (max b.toNat 1) 8
      · rw [if_neg (by simpa using clamped), if_pos clamped]; rfl
      · rw [if_pos (by simpa using clamped), if_neg clamped]; rfl
  · have refused : (s.prog p).idle = false := by obtain h | h := active <;> simp [Program.idle, h]
    rw [refused] at eval
    exact exec_denied (c := .progDefine m) rfl rfl h length eval

/-! ## PROG_CLEAR (R46) -/

theorem clearProgram_prog (p : ProgId) (s : State) : (clearProgram p s).prog p =
    { s.prog p with
      state := .undefined, slots := 0, weights := [], sets := .replicate 4 none
      delay := { (s.prog p).delay with reserve := 0, chain := [], writePos := 0, flushCounter := 0 } } := by
  unfold clearProgram
  rw [setProgCond_false_prog, setProgCond_false_prog, State.onProg, State.setProg_prog_self, returnPages_prog_self]

theorem clearProgram_effect (p : ProgId) (s : State) : ProgEffect p (returnPages p s) (clearProgram p s) :=
  ((ProgEffect.onProg ..).trans (.setProgCond (by decide) ..)).trans (.setProgCond (by decide) ..)

/-- Settles O25, by the states of the program. -/
theorem progClearReturnsPages : Obligations.ProgClearReturnsPages := by
  intro s m p h body
  have length : Kind.progClear.lengthOk m.body.length = true := by rw [body]; rfl
  have eval : evalProgClear m.body s = match (s.prog p).state with
      | .undefined => .ok { after := s }
      | .defined => .ok { after := clearProgram p s }
      | .running => .error .wrongState
      | .stopping => .error .wrongState := by
    simp only [body, evalProgClear, byteAt_zero, progIndex_val]; rfl
  refine ⟨fun defined => ?_, fun undefined => ?_, fun active => ?_⟩
  · rw [defined] at eval
    have effect := clearProgram_effect p s
    have record := clearProgram_prog p s
    have pages := effect.quiet.freePages.trans (returnPages_freePages p s)
    have done := exec_taken (c := .progClear m) rfl rfl h length eval
    generalize clearProgram p s = t at *
    exact ⟨_, done, ⟨_, record, rfl, rfl, rfl, rfl, rfl⟩, pages, replying_reply (s := s) effect.quiet.unitAddr ..,
      fun q hq => (effect.prog q hq).trans (returnPages_prog_ne hq s), effect.feeds, effect.quiet.store⟩
  · rw [undefined] at eval
    exact exec_taken (c := .progClear m) rfl rfl h length eval
  · refine exec_denied (c := .progClear m) (st := .wrongState) rfl rfl h length (eval.trans ?_)
    obtain h | h := active <;> rw [h]

end

end Sys2Proof.Machine
end

section
/-! PROOFS. The run of a program by message: PROG_RESTART, PROG_STOP and PROG_START. -/
namespace Sys2Proof.Machine

/-! ## The latency equation of one program in two states -/

/-- The equation reads the current set, the classes of its feeds, Ltgt and the reserve. -/
theorem SameEquation.of {s t : State} {g h : Program} (set : h.currentSet = g.currentSet) (feeds : t.feeds = s.feeds)
    (ltgt : h.delay.ltgt = g.delay.ltgt) (reserve : h.delay.reserve = g.delay.reserve) : SameEquation s g t h :=
  ⟨latencies_congr set fun x _ => by rw [State.feed_congr feeds], ltgt, reserve⟩

theorem setProgCond_false_feeds (p : ProgId) (k : ProgCond) (s : State) : (setProgCond p k false s).feeds = s.feeds := by
  by_cases silence : k = .silence
  · rw [silence]; exact (ProgEffect.setSilence_false p s).feeds
  · exact (ProgEffect.setProgCond silence p false s).feeds

theorem startDelay_silence (p q : ProgId) (s : State) : (startDelay p s).progCond q .silence = s.progCond q .silence := by
  unfold startDelay judgeLatency
  dsimp only
  rw [State.setProg_progCond, setProgCond_progCond (by decide), setProgCond_progCond (by decide)]
  simp

theorem GainEffect.progCond {s t : State} (h : GainEffect s t) (p : ProgId) (k : ProgCond) :
    t.progCond p k = s.progCond p k := by rw [h.rest]; rfl

theorem GainEffect.feeds {s t : State} (h : GainEffect s t) : t.feeds = s.feeds := by rw [h.rest]

@[simp] theorem replying_prog (k : Kind) (body : List Byte) (t : State) (p : ProgId) :
    (replying k body t).prog p = t.prog p := rfl

/-! ## PROG_RESTART (R55) -/

section
variable (p : ProgId) (s : State)

/-- A restart on the record: the loudness controller and the fade-in, and the rings flushed with Dcur at Dtgt. -/
theorem rerunState_prog : (rerunState p s).prog p =
    { (s.prog p).rerun with delay := { (s.prog p).delay.flush.noOp with
      dtgt := delayTargetOf s (s.prog p), dcur := delayTargetOf s (s.prog p) } } := by
  have cleared : (setProgCond p .silence false (s.onProg p Program.rerun)).prog p = (s.prog p).rerun := by
    rw [setProgCond_false_prog, State.onProg, State.setProg_prog_self]
  have same : SameEquation s (s.prog p) (setProgCond p .silence false (s.onProg p Program.rerun)) (s.prog p).rerun :=
    .of rfl (setProgCond_false_feeds ..) rfl rfl
  unfold rerunState
  rw [startDelay_prog_self, cleared, same.target]
  rfl

theorem rerunState_effect : ProgEffect p s (rerunState p s) :=
  ((ProgEffect.onProg p s Program.rerun).trans (.setSilence_false p _)).trans (.startDelay p _)

theorem rerunState_silence : (rerunState p s).progCond p .silence = false := by
  unfold rerunState
  rw [startDelay_silence, setProgCond_false_progCond, if_pos ⟨rfl, rfl⟩]

end

/-- Settles O29: the record by `rerunState_prog`, of which the membership event changes the applied gain and its ramp. -/
theorem progRestartKeepsStack : Obligations.ProgRestartKeepsStack := by
  intro s m p h body
  have length : Kind.progRestart.lengthOk m.body.length = true := by rw [body]; rfl
  have eval : evalProgRestart m.body s = (require (s.prog p).running .wrongState).bind fun _ => .ok
      { after := restartProgram p s } := by
    simp only [body, evalProgRestart, byteAt_zero, progIndex_val]; rfl
  refine ⟨fun still => ?_, fun running => ?_⟩
  · rw [Program.running, beq_eq_false_iff_ne.2 still] at eval
    exact exec_denied (c := .progRestart m) (st := .wrongState) rfl rfl h length eval
  · rw [Program.running, running, restartProgram_eq] at eval
    have done := exec_taken (c := .progRestart m) rfl rfl h length eval
    have gain := GainEffect.membershipEvent p (rerunState p s)
    have record := gain.prog p
    rw [rerunState_prog] at record
    have quiet := (rerunState_effect p s).quiet.trans gain.quiet
    have feeds := gain.feeds.trans (rerunState_effect p s).feeds
    have silence := (gain.progCond p .silence).trans (rerunState_silence p s)
    generalize membershipEvent p (rerunState p s) = t at *
    refine ⟨_, done, ?_⟩
    rw [replying_prog, record]
    exact ⟨running, rfl, rfl, rfl, rfl, rfl, rfl, rfl, rfl, rfl, rfl, rfl, rfl, rfl, rfl, fun fading => if_pos fading,
      silence, replying_reply quiet.unitAddr .., feeds, quiet.store⟩

/-! ## PROG_STOP (R53, R54) -/

/-- What a stop has done before the stop fade runs: the record stopped, and the applied gains formed again. -/
def stoppedState (p : ProgId) (s : State) : State := membershipEvent p (s.onProg p Program.stopped)

theorem stopProgram_eq (p : ProgId) (s : State) : stopProgram p s =
    if (s.prog p).outLevel = 0 then endStopFade p (stoppedState p s) else stoppedState p s := rfl

theorem Program.stopped_stack (g : Program) :
    g.stopped.stack = if g.swap.phase = .none then g.stack else g.stack.getLast?.toList := by
  by_cases still : g.swap.phase = .none <;> simp [Program.stopped, Program.swapping, still, Program.currentRank]

theorem Program.stopped_currentRank (g : Program) : g.stopped.currentRank = g.currentRank := by
  unfold Program.currentRank
  rw [g.stopped_stack]
  split
  · rfl
  · cases g.stack.getLast? <;> rfl

theorem Program.stopped_swap (g : Program) : g.stopped.swap.phase = .none ∧ g.stopped.swap.level = g.swap.level := by
  by_cases still : g.swap.phase = .none <;> simp [Program.stopped, Program.swapping, still]

section
variable {s : State} {p : ProgId}

theorem stoppedState_gain (p : ProgId) (s : State) : GainEffect (s.onProg p Program.stopped) (stoppedState p s) :=
  .membershipEvent p _

theorem stoppedState_prog : ∃ b n, (stoppedState p s).prog p = { (s.prog p).stopped with
    loud := { (s.prog p).loud with appliedGain := (s.prog p).loud.ownGain, rampTarget := b, rampLeft := n } } := by
  have record := (stoppedState_gain p s).prog p
  have applied := membershipEvent_applied p p (s.onProg p Program.stopped)
  have alone : isMember ((s.onProg p Program.stopped).prog p)
      ((s.onProg p Program.stopped).prog p).loud.active.link = false := by
    rw [State.onProg, State.setProg_prog_self]; rfl
  rw [if_pos (.inl rfl), appliedGainOf_alone alone] at applied
  change ((stoppedState p s).prog p).loud.appliedGain = _ at applied
  rw [applied, State.onProg, State.setProg_prog_self] at record
  exact ⟨_, _, record⟩

theorem stoppedState_prog_ne {q : ProgId} (other : q ≠ p) : ∃ a b n, (stoppedState p s).prog q =
    { s.prog q with loud := { (s.prog q).loud with appliedGain := a, rampTarget := b, rampLeft := n } } := by
  have record := (stoppedState_gain p s).prog q
  rw [State.onProg, State.setProg_prog_ne other] at record
  exact ⟨_, _, _, record⟩

/-- Settles O28: the record by `stoppedState_prog`, and at output fade level 0 by the end of the stop fade after it. -/
theorem progStopFadesOut : Obligations.ProgStopFadesOut := by
  intro s m p h body
  have length : Kind.progStop.lengthOk m.body.length = true := by rw [body]; rfl
  have eval : evalProgStop m.body s = match (s.prog p).state with
      | .undefined => .error .wrongState
      | .defined => .ok { after := s }
      | .stopping => .ok { after := s }
      | .running => .ok { after := stopProgram p s } := by
    simp only [body, evalProgStop, byteAt_zero, progIndex_val]; rfl
  obtain ⟨b, n, record⟩ := stoppedState_prog (s := s) (p := p)
  have others := fun q (hq : q ≠ p) => stoppedState_prog_ne (s := s) (p := p) hq
  have gain := stoppedState_gain p s
  have rest := gain.rest
  refine ⟨fun undefined => ?_, fun idle => ?_, fun running level => ?_, fun running level => ?_⟩
  · rw [undefined] at eval
    exact exec_denied (c := .progStop m) rfl rfl h length eval
  · refine exec_taken (c := .progStop m) rfl rfl h length (eval.trans ?_)
    obtain h | h := idle <;> rw [h]
  · rw [running, stopProgram_eq, if_neg level] at eval
    have done := exec_taken (c := .progStop m) rfl rfl h length eval
    generalize stoppedState p s = t at *
    refine ⟨_, done, ?_⟩
    rw [replying_prog, record]
    have kept : t.feeds = s.feeds ∧ t.entries = s.entries ∧ t.conds = s.conds ∧ t.notices = s.notices ∧
        t.store = s.store ∧ t.unitAddr = s.unitAddr := by
      rw [rest]; exact ⟨rfl, rfl, rfl, rfl, rfl, rfl⟩
    obtain ⟨feeds, entries, conds, notices, store, addr⟩ := kept
    exact ⟨rfl, rfl, rfl, (s.prog p).stopped_swap.1, (s.prog p).stopped_swap.2, (s.prog p).stopped_stack, rfl, rfl, rfl,
      rfl, feeds, entries, conds, notices, store, replying_reply addr .., others⟩
  · rw [running, stopProgram_eq, if_pos level] at eval
    have done := exec_taken (c := .progStop m) rfl rfl h length eval
    have ended := ProgEffect.endStopFade p (stoppedState p s)
    have final := endStopFade_prog p (stoppedState p s)
    have conds := endStopFade_progCond p (stoppedState p s)
    have told := endStopFade_reported p (stoppedState p s)
    have rank : ((stoppedState p s).prog p).currentRank = (s.prog p).currentRank := by
      rw [record]; exact (s.prog p).stopped_currentRank
    rw [StopReported, rank] at told
    rw [record] at final
    have kept : (stoppedState p s).feeds = s.feeds ∧ (stoppedState p s).store = s.store ∧
        (stoppedState p s).unitAddr = s.unitAddr ∧ (stoppedState p s).blockCounter = s.blockCounter := by
      rw [rest]; exact ⟨rfl, rfl, rfl, rfl⟩
    obtain ⟨feeds, store, addr, counter⟩ := kept
    rw [counter] at told
    generalize stoppedState p s = u at *
    generalize endStopFade p u = t at *
    refine ⟨_, done, ?_⟩
    rw [replying_prog, final]
    exact ⟨rfl, rfl, rfl, rfl, rfl, level, rfl, rfl, rfl, rfl, rfl, rfl, rfl, rfl, conds, told, ended.feeds.trans feeds,
      ended.quiet.store.trans store, replying_reply (ended.quiet.unitAddr.trans addr) ..,
      fun q hq => by rw [replying_prog, ended.prog q hq]; exact others q hq⟩

end

/-! ## PROG_START (R50, R51) -/

/-- The rank found in the order of ranks is the lowest that passes. -/
theorem find_allRanks {test : Rank → Bool} {r : Rank} (h : allRanks.find? test = some r) :
    test r = true ∧ ∀ r' < r, test r' = false := by
  obtain ⟨found, i, hi, here, below⟩ := List.find?_eq_some_iff_getElem.1 h
  refine ⟨found, fun r' lower => ?_⟩
  have place : i = r.val := by rw [← here]; exact (congrArg Fin.val (List.getElem_finRange hi)).symm
  have at_ : allRanks[r'.val] = r' := List.getElem_finRange _
  have fails := below r'.val (place ▸ lower)
  rwa [Bool.not_eq_true', at_] at fails

theorem find_allRanks_none {test : Rank → Bool} (h : allRanks.find? test = none) (r : Rank) : test r = false :=
  Bool.eq_false_iff.2 (List.find?_eq_none.1 h r (List.mem_finRange r))

section
variable (p : ProgId) (s : State)

theorem startedState_prog : (startedState p s).prog p =
    { (s.prog p).started (startRank s (s.prog p)) with delay := { (s.prog p).delay.flush.noOp with
      dtgt := delayTargetOf s { s.prog p with stack := [startRank s (s.prog p)] }
      dcur := delayTargetOf s { s.prog p with stack := [startRank s (s.prog p)] } } } := by
  have judged : (judgeNoSource p (s.onProg p (·.started (startRank s (s.prog p))))).prog p =
      (s.prog p).started (startRank s (s.prog p)) := by
    rw [judgeNoSource_prog, State.onProg, State.setProg_prog_self]
  have same : SameEquation s { s.prog p with stack := [startRank s (s.prog p)] }
      (judgeNoSource p (s.onProg p (·.started (startRank s (s.prog p)))))
      ((s.prog p).started (startRank s (s.prog p))) := .of rfl (judgeNoSource_feeds ..) rfl rfl
  unfold startedState
  rw [setProgCond_false_prog, startDelay_prog_self, judged, same.target]
  rfl

theorem startedState_effect : ProgEffect p s (startedState p s) :=
  (((ProgEffect.onProg p s _).trans (.judgeNoSource p _)).trans (.startDelay p _)).trans (.setSilence_false p _)

/-- What a start leaves to its notice and the judgement of ON_BACKUP. -/
def startReady (p : ProgId) (s : State) : State := snapGain p (membershipEvent p (startedState p s))

theorem startProgram_ready : startProgram p s =
    judgeOnBackup p (sourceChanged p none (some (startRank s (s.prog p))) none (startReady p s)) := rfl

theorem startReady_quiet : Quiet s (startReady p s) :=
  ((startedState_effect p s).quiet.trans (GainEffect.membershipEvent p _).quiet).trans (Quiet.setProg _ p _)

theorem startReady_grows : Grows s (startReady p s) := by
  have started : AlarmSteps s (startedState p s) :=
    (((AlarmSteps.refl.onProg p _).judgeNoSource p).startDelay p).setProgCond ..
  unfold startReady snapGain
  exact ((started.gain (.membershipEvent p _)).onProg p _).grows

theorem startProgram_quiet : Quiet s (startProgram p s) :=
  ((startReady_quiet p s).trans (Quiet.pushNotice ..)).trans (ProgEffect.judgeOnBackup p _).quiet

/-- SOURCE_CHANGED from none to the rank, with cause START. -/
theorem startProgram_reported : Reported .sourceChanged (.program p)
    [0xFF, BitVec.ofNat 8 (startRank s (s.prog p)).val, 0] s (startProgram p s) :=
  .of (startReady_grows p s) (startReady_quiet p s).blockCounter (AlarmSteps.refl.judgeOnBackup p).grows

/-- The record a start leaves: the applied gain formed by the membership event is the present gain at once. -/
theorem startProgram_prog : ∃ a b c n, (startProgram p s).prog p = { (startedState p s).prog p with
    loud := { ((startedState p s).prog p).loud with
      appliedGain := a, presentGain := b, rampTarget := c, rampLeft := n } } := by
  have gained := (GainEffect.membershipEvent p (startedState p s)).prog p
  have snapped : (startReady p s).prog p = _ := State.setProg_prog_self ..
  rw [startProgram_ready, judgeOnBackup, setProgCond_prog (by decide), sourceChanged, pushNotice_prog, snapped]
  generalize (membershipEvent p (startedState p s)).prog p = g at *
  generalize (startedState p s).prog p = h at *
  exact ⟨g.loud.appliedGain, g.loud.appliedGain, g.loud.appliedGain, 0, by rw [gained]⟩

theorem startProgram_prog_ne {q : ProgId} (other : q ≠ p) : ∃ a b n, (startProgram p s).prog q =
    { s.prog q with loud := { (s.prog q).loud with appliedGain := a, rampTarget := b, rampLeft := n } } := by
  have gained := (GainEffect.membershipEvent p (startedState p s)).prog q
  rw [(startedState_effect p s).prog q other] at gained
  have snapped (u : State) : (snapGain p u).prog q = u.prog q := State.setProg_prog_ne other u _
  rw [startProgram_ready, judgeOnBackup, setProgCond_prog (by decide), sourceChanged, pushNotice_prog, startReady, snapped]
  exact ⟨_, _, _, gained⟩

theorem startProgram_noSourceAt : NoSourceAt (startProgram p s) p := by
  have started : SourcesSame (judgeNoSource p (s.onProg p (·.started (startRank s (s.prog p)))))
      (sourceChanged p none (some (startRank s (s.prog p))) none (startReady p s)) := by
    unfold startReady startedState sourceChanged snapGain
    exact (((((SourcesSame.refl _).startDelay p).clearSilence p).gain (.membershipEvent p _)).loud).pushNotice ..
  rw [startProgram_ready]
  exact judgeOnBackup_noSourceAt (started.noSourceAt (judgeNoSource_noSourceAt p _))

end

section
variable {s t : State} {p : ProgId}

theorem rankHealthy_of_sets {g h : Program} (sets : h.sets = g.sets) (feeds : t.feeds = s.feeds) (r : Rank) :
    rankHealthy t h r = rankHealthy s g r := by
  unfold rankHealthy Program.setAt setHealthy
  rw [sets]
  simp only [State.feed_congr feeds]

theorem eligible_unmarked {g h : Program} (sets : h.sets = g.sets) (feeds : t.feeds = s.feeds)
    (marks : h.marks = .replicate 4 false) (r : Rank) : eligible t h r = rankHealthy s g r := by
  have clear : h.markAt r = false := by unfold Program.markAt; rw [marks]; exact Vector.getElem_replicate ..
  rw [eligible, clear, rankHealthy_of_sets sets feeds, Bool.not_false, Bool.and_true]

/-- A start runs on the lowest rank whose feeds are healthy, or on rank 0 with NO_SOURCE true. -/
theorem startProgram_source (feeds : (startProgram p s).feeds = s.feeds) (r : Rank)
    (rank : startRank s (s.prog p) = r) :
    rankHealthy s (s.prog p) r = true ∧ (∀ r' < r, rankHealthy s (s.prog p) r' = false) ∧
        (startProgram p s).progCond p .noSource = false ∨
      r = 0 ∧ (∀ r', rankHealthy s (s.prog p) r' = false) ∧ (startProgram p s).progCond p .noSource = true := by
  obtain ⟨a, b, c, n, record⟩ := startProgram_prog p s
  rw [startedState_prog, rank] at record
  have judged := startProgram_noSourceAt p s
  generalize startProgram p s = t at *
  have active : (t.prog p).active = true := by rw [record]; rfl
  have same (r' : Rank) : eligible t (t.prog p) r' = rankHealthy s (s.prog p) r' :=
    eligible_unmarked (by rw [record]; rfl) feeds (by rw [record]; rfl) r'
  have current : currentEligible t (t.prog p) = rankHealthy s (s.prog p) r := by
    have top : (t.prog p).currentRank = some r := by rw [record]; rfl
    rw [currentEligible, top]
    exact same r
  have test := noSourceTest_iff (s := t) active
  rw [← judged] at test
  simp only [current, same] at test
  unfold startRank at rank
  cases found : allRanks.find? (rankHealthy s (s.prog p)) with
  | some d =>
    rw [found] at rank
    obtain rfl : d = r := rank
    obtain ⟨healthy, below⟩ := find_allRanks found
    refine .inl ⟨healthy, below, Bool.eq_false_iff.2 fun none => ?_⟩
    rw [healthy] at test
    exact absurd (test.1 none).1 (by decide)
  | none =>
    rw [found] at rank
    have none := find_allRanks_none found
    exact .inr ⟨rank.symm, none, test.2 ⟨none r, none⟩⟩

/-- Settles O27: the record by `startProgram_prog`, the rank and NO_SOURCE by `startProgram_source`. -/
theorem progStartRuns : Obligations.ProgStartRuns := by
  intro s m p h body
  have length : Kind.progStart.lengthOk m.body.length = true := by rw [body]; rfl
  have eval : evalProgStart m.body s = match (s.prog p).state with
      | .undefined => .error .wrongState
      | .running => .error .wrongState
      | .stopping => .error .busy
      | .defined =>
        (require (((s.prog p).setAt 0).isSome && decide (1 ≤ (s.prog p).delay.reserve)) .wrongState).bind fun _ => .ok
          { fields := byte1 (startRank s (s.prog p)).val ++ bool1 ((startProgram p s).progCond p .noSource)
            after := startProgram p s } := by
    simp only [body, evalProgStart, byteAt_zero, progIndex_val]; rfl
  refine ⟨fun defined first reserve => ?_, fun refused => ?_, fun stopping => ?_⟩
  · rw [defined, first, decide_eq_true reserve] at eval
    have done := exec_taken (c := .progStart m) rfl rfl h length eval
    obtain ⟨a, b, c, n, record⟩ := startProgram_prog p s
    rw [startedState_prog] at record
    have feeds := ((FeedsSame.refl s).startProgram p).feeds
    have source := startProgram_source feeds _ rfl
    have backup : BackupAt (startProgram p s) p := judgeOnBackup_backupAt p _
    have told := startProgram_reported p s
    have others := fun q (hq : q ≠ p) => startProgram_prog_ne p s hq
    have quiet := startProgram_quiet p s
    generalize startRank s (s.prog p) = r at *
    generalize startProgram p s = t at *
    unfold BackupAt at backup
    refine ⟨_, r, done, source, ?_⟩
    simp only [replying_prog]
    rw [record] at backup ⊢
    refine ⟨rfl, rfl, rfl, rfl, rfl, rfl, rfl, rfl, rfl, rfl, rfl, rfl, rfl, rfl, rfl, ?_,
      replying_reply quiet.unitAddr .., told, quiet.freePages, quiet.store, fun f => ?_, fun q hq => ?_⟩
    · have value : t.progCond p .onBackup = (true && r != 0) := backup
      change t.progCond p .onBackup = true ↔ _
      rw [value, Bool.true_and, bne_iff_ne]
    · change (t.feed f).port = _ ∧ (t.feed f).conv = _
      rw [State.feed_congr feeds]
      exact ⟨rfl, rfl⟩
    · obtain ⟨a, b, n, held⟩ := others q hq
      rw [held]
      exact ⟨rfl, rfl, rfl⟩
  · refine exec_denied (c := .progStart m) (st := .wrongState) rfl rfl h length (eval.trans ?_)
    obtain h | h | ⟨h, none | none⟩ := refused
    · rw [h]
    · rw [h]
    · rw [h, none]; rfl
    · rw [h, none, decide_eq_false (by decide), Bool.and_false]; rfl
  · rw [stopping] at eval
    exact exec_denied (c := .progStart m) (st := .busy) rfl rfl h length eval

end

end Sys2Proof.Machine
end

section
/-! PROOFS. SET_DEFINE and SOURCE_SELECT: messages that are an eligibility event of their program. -/
namespace Sys2Proof.Machine

/-! ## Entries of a set, read from a body (R47) -/

theorem noRepeats_of_nodup : ∀ {l : List SlotSource}, l.Nodup → noRepeats l = true
  | [], _ => rfl
  | x :: l, h => by
    obtain ⟨fresh, distinct⟩ := List.nodup_cons.1 h
    simp [noRepeats, fresh, noRepeats_of_nodup distinct]

theorem readSource_bytes (x : SlotSource) :
    readSource (BitVec.ofNat 8 x.feed.val).toNat (BitVec.ofNat 8 x.chan.code).toNat = some x := by
  obtain ⟨f, c⟩ := x
  have feed : (BitVec.ofNat 8 f.val).toNat = f.val := by simp; omega
  unfold readSource
  simp only [feed, f.isLt, dite_true]
  cases c <;> rfl

theorem byteAt_entries {l : List SlotSource} {k : Nat} {x : SlotSource} (h : l[k]? = some x) :
    byteAt (l.flatMap SlotSource.bytes) (2 * k) = (BitVec.ofNat 8 x.feed.val).toNat ∧
      byteAt (l.flatMap SlotSource.bytes) (2 * k + 1) = (BitVec.ofNat 8 x.chan.code).toNat := by
  induction l generalizing k with
  | nil => simp at h
  | cons y l ih =>
    cases k with
    | zero =>
      obtain rfl : y = x := by simpa using h
      exact ⟨rfl, rfl⟩
    | succ k => exact ih (by simpa using h)

theorem entries_length (l : List SlotSource) : (l.flatMap SlotSource.bytes).length = l.length * 2 :=
  length_flatMap_const fun _ => rfl

theorem readEntries_eq (l : List SlotSource) (a b : Byte) : readEntries ([a, b] ++ l.flatMap SlotSource.bytes) = some l := by
  have count : (([a, b] ++ l.flatMap SlotSource.bytes).length - 2) / 2 = l.length := by
    rw [List.length_append, entries_length]; simp
  unfold readEntries
  rw [count]
  refine mapM_range_eq fun k x hk => ?_
  obtain ⟨feed, chan⟩ := byteAt_entries hk
  rw [show 2 + 2 * k = 2 * k + 1 + 1 by omega, show 3 + 2 * k = 2 * k + 1 + 1 + 1 by omega]
  change readSource (byteAt (l.flatMap SlotSource.bytes) (2 * k)) (byteAt (l.flatMap SlotSource.bytes) (2 * k + 1)) = _
  rw [feed, chan, readSource_bytes]

/-! ## What an eligibility event leaves of its program (R63) -/

section
variable {s : State} {p : ProgId}

theorem eventful_eq (g : Program) (s : State) (was : Bool) : ∃ w n fell, g.eventful s was =
    { g with swap := w, returnTimer := n, returnFell := fell } := by
  have zeroed (b : Bool) : ∃ n fell, (if b then g.zeroReturn else g) = { g with returnTimer := n, returnFell := fell } := by
    cases b
    · exact ⟨_, _, rfl⟩
    · exact ⟨_, _, rfl⟩
  obtain ⟨n, fell, here⟩ := zeroed (g.running && !returnEligible s g)
  unfold Program.eventful Program.triggered
  dsimp only
  rw [here]
  split
  · split <;> exact ⟨_, _, _, rfl⟩
  · exact ⟨_, _, _, rfl⟩

/-- An eligibility event of a program that runs or stops judges NO_SOURCE, the return timer, and the failover swap that
the end of NO_SOURCE begins. -/
theorem eligibilityEvent_judged (active : (s.prog p).active = true) {t : State} (event : t = eligibilityEvent p s) :
    (t.progCond p .noSource = true ↔
      currentEligible t (t.prog p) = false ∧ ∀ r, eligible t (t.prog p) r = false) ∧
    (t.prog p).returnTimer =
      (if (s.prog p).state = .running ∧ returnEligible t (t.prog p) = false then 0 else (s.prog p).returnTimer) ∧
    (t.prog p).swap =
      if s.progCond p .noSource = true ∧ t.progCond p .noSource = false ∧ (s.prog p).state = .running ∧
          currentEligible t (t.prog p) = false then failoverSwap (s.prog p)
      else (s.prog p).swap := by
  have healthy : SameHealth s t := fun f => by rw [event, State.feed_congr (ProgEffect.eligibilityEvent p s).feeds]
  have record : t.prog p = _ := (congrArg (State.prog · p) event).trans (eligibilityEvent_prog active)
  have ranks : (s.prog p).SameRanks (t.prog p) := by rw [record]; exact eventful_ranks
  have cond : t.progCond p .noSource = noSourceTest s (s.prog p) := by rw [event, eligibilityEvent_noSource active]
  have ranked (r : Rank) := eligible_same healthy ranks r
  rw [cond, noSourceTest_iff active, currentEligible_same healthy ranks, returnEligible_same healthy ranks]
  refine ⟨by simp only [ranked], ?_, ?_⟩
  · rw [record, eventful_timer]
    simp only [Program.running, Bool.and_eq_true, beq_iff_eq, Bool.not_eq_true']
  · rw [record, eventful_swap]
    simp only [Program.running, Bool.and_eq_true, beq_iff_eq, Bool.not_eq_true', and_assoc]

end

/-- A failover swap that has begun, written out: in FADE_OUT the swap in flight goes on. -/
theorem begun_or_fading (g : Program) (a b c d : Prop) [Decidable a] [Decidable b] [Decidable c] [Decidable d] :
    (if a ∧ b ∧ c ∧ d then failoverSwap g else g.swap) =
      if a ∧ b ∧ c ∧ d ∧ g.swap.phase ≠ .fadeOut then
        { phase := .fadeOut, level := g.swap.level, cause := some .failover, origin := g.currentRank }
      else g.swap := by
  by_cases fading : g.swap.phase = .fadeOut <;> simp [failoverSwap, fading]

/-! ## SET_DEFINE (R47 to R49) -/

section
variable {s : State} {m : Msg} {p : ProgId} {r : Rank} {l : List SlotSource}

theorem evalSetDefine_legal (distinct : l.Nodup)
    (body : m.body = [BitVec.ofNat 8 p.val, BitVec.ofNat 8 r.val] ++ l.flatMap SlotSource.bytes) :
    evalSetDefine m.body s =
      (require (setTaken (s.prog p) r (rankSet (s.prog p).slots l)) .wrongState).bind fun _ => .ok
        { fields := byte1 r.val ++ byte1 ((rankSet (s.prog p).slots l).getD []).length ++
            ((rankSet (s.prog p).slots l).getD []).flatMap SlotSource.bytes
          after := storeSet p r (rankSet (s.prog p).slots l) s } := by
  have prog : byteAt m.body 0 = (BitVec.ofNat 8 p.val).toNat := by rw [body]; rfl
  have rank : byteAt m.body 1 = (BitVec.ofNat 8 r.val).toNat := by rw [body]; rfl
  have entries : readEntries m.body = some l := by rw [body]; exact readEntries_eq ..
  simp only [evalSetDefine, prog, rank, entries, progIndex_val, rankIndex_val, enumField, noRepeats_of_nodup distinct,
    require_true, bind, Except.bind]

/-- Settles O26: off the stack of a program that runs or stops, by the eligibility event of `storeSet`. -/
theorem setDefineTakenOrRefused : Obligations.SetDefineTakenOrRefused := by
  intro s m p r l h distinct short body
  have length : Kind.setDefine.lengthOk m.body.length = true := by
    rw [body, List.length_append, entries_length]; simp [Kind.lengthOk]; omega
  have eval := evalSetDefine_legal (s := s) distinct body
  have made : rankSet (s.prog p).slots l = if l.length = (s.prog p).slots then some l else none := rfl
  rw [made] at eval
  dsimp only
  generalize (if l.length = (s.prog p).slots then some l else none) = v at *
  refine ⟨fun defined => ?_, fun active off first => ?_, fun refused => ?_⟩
  · have taken : setTaken (s.prog p) r v = true := by simp [setTaken, defined]
    rw [taken] at eval
    have idle : ((s.onProg p (·.withSet r v)).prog p).active = false := by
      rw [State.onProg, State.setProg_prog_self, Program.withSet_active]; simp [Program.active, defined]
    rw [storeSet_eq, eligibilityEvent_idle idle] at eval
    exact exec_taken (c := .setDefine m) rfl rfl h length eval
  · have taken : setTaken (s.prog p) r v = true := by
      obtain running | stopping := (Program.active_iff _).1 active
      · have kept : r ≠ 0 ∨ v.isSome = true := by
          by_cases zero : r = 0
          · exact .inr (first running zero)
          · exact .inl zero
        simpa [setTaken, running, off] using kept
      · simp [setTaken, stopping, off]
    rw [taken] at eval
    have done := exec_taken (c := .setDefine m) rfl rfl h length eval
    have effect : ProgEffect p s (storeSet p r v s) := (ProgEffect.onProg p s _).trans (.eligibilityEvent p _)
    have before : (s.onProg p (·.withSet r v)).prog p = (s.prog p).withSet r v := State.setProg_prog_self ..
    have on : ((s.onProg p (·.withSet r v)).prog p).active = true := by rw [before]; exact active
    obtain ⟨noSource, timer, swap⟩ := eligibilityEvent_judged on (storeSet_eq p r v s)
    have record := eligibilityEvent_prog on
    rw [← storeSet_eq] at record
    rw [before] at record timer swap
    obtain ⟨w, n, fell, same⟩ := eventful_eq ((s.prog p).withSet r v) (s.onProg p (·.withSet r v))
      ((s.onProg p (·.withSet r v)).progCond p .noSource)
    rw [same] at record
    rw [State.onProg, State.setProg_progCond] at swap
    generalize storeSet p r v s = t at *
    refine ⟨_, done, ⟨w, n, fell, record⟩, noSource, timer, ?_, replying_reply effect.quiet.unitAddr .., effect.prog,
      effect.feeds, effect.quiet.store, effect.quiet.freePages⟩
    rw [replying_prog, swap]
    exact begun_or_fading ..
  · have taken : setTaken (s.prog p) r v = false := by
      obtain undefined | ⟨active, on⟩ | ⟨running, rfl, rfl⟩ := refused
      · simp [setTaken, undefined]
      · obtain h | h := (Program.active_iff _).1 active <;> simp [setTaken, h, on]
      · simp [setTaken, running]
    rw [taken] at eval
    exact exec_denied (c := .setDefine m) (st := .wrongState) rfl rfl h length eval

end

/-! ## SOURCE_SELECT (R78) -/

section
variable {s : State} {m : Msg} {p : ProgId} {r : Rank}

/-- The record of a program whose current rank is selected again, before its mark's eligibility event. -/
def Program.alone (g : Program) (r : Rank) : Program := (({ g with stack := [r] } : Program).zeroReturn).withMark r false

theorem selectCurrent_eq (p : ProgId) (r : Rank) (s : State) :
    selectCurrent p r s = eligibilityEvent p (s.setProg p ((s.prog p).alone r)) := by
  unfold selectCurrent setMark
  simp only [State.onProg, State.setProg_prog_self, State.setProg_setProg]
  rfl

theorem Program.alone_markAt_self (g : Program) (r : Rank) : (g.alone r).markAt r = false := Vector.getElem_set_self ..

theorem Program.alone_markAt_ne (g : Program) {r r' : Rank} (other : r' ≠ r) : (g.alone r).markAt r' = g.markAt r' :=
  Vector.getElem_set_ne r.isLt r'.isLt fun same => other (Fin.ext same.symm)

/-- Where NO_SOURCE stands as its law says, the current rank selected again starts no swap: with no rank eligible
before, only the rank selected can be eligible after, and the current set is that rank's. -/
theorem selectCurrent_swap (law : SourceLaw s) (active : (s.prog p).active = true) {t : State}
    (event : t = eligibilityEvent p (s.setProg p ((s.prog p).alone r))) : (t.prog p).swap = (s.prog p).swap := by
  have before : (s.setProg p ((s.prog p).alone r)).prog p = (s.prog p).alone r := State.setProg_prog_self ..
  have on : ((s.setProg p ((s.prog p).alone r)).prog p).active = true := by rw [before]; exact active
  obtain ⟨noSource, -, swap⟩ := eligibilityEvent_judged on event
  have record := eligibilityEvent_prog on
  have feeds := (ProgEffect.eligibilityEvent p (s.setProg p ((s.prog p).alone r))).feeds
  rw [← event, before] at record
  rw [← event] at feeds
  have ranks : ((s.prog p).alone r).SameRanks (t.prog p) := by rw [record]; exact eventful_ranks
  rw [before, State.setProg_progCond] at swap
  rw [swap]
  refine if_neg fun ⟨was, now, _, off⟩ => ?_
  have none : ∀ r', eligible s (s.prog p) r' = false := by
    rw [law.noSourceAt p, noSourceTest_iff active] at was
    exact was.2
  have top : (t.prog p).currentRank = some r := ranks.rank
  have here : eligible t (t.prog p) r = false := by rwa [currentEligible, top] at off
  refine absurd (noSource.2 ⟨off, fun r' => ?_⟩) (by rw [now]; decide)
  by_cases same : r' = r
  · rw [same]; exact here
  · have mark : (t.prog p).markAt r' = (s.prog p).markAt r' := by
      rw [Program.markAt, ranks.marks]; exact (s.prog p).alone_markAt_ne same
    rw [eligible, rankHealthy_of_sets ranks.sets feeds, mark]
    exact none r'

theorem evalSourceSelect_eq (body : m.body = [BitVec.ofNat 8 p.val, BitVec.ofNat 8 r.val]) :
    evalSourceSelect m.body s =
      (require ((s.prog p).running && ((s.prog p).setAt r).isSome) .wrongState).bind fun _ =>
        (require (!(s.prog p).swapping) .busy).bind fun _ => .ok
          { fields := byte1 r.val
            after := if (s.prog p).currentRank = some r then selectCurrent p r s
              else s.onProg p (·.startFadeOut .select (some r)) } := by
  simp only [body, evalSourceSelect, byteAt_zero, byteAt_succ, progIndex_val, rankIndex_val, bind, Except.bind]

/-- Settles O32, by the tests of the message and the record. -/
theorem sourceSelectTakenOrRefused : Obligations.SourceSelectTakenOrRefused := by
  intro s m p r h body
  have length : Kind.sourceSelect.lengthOk m.body.length = true := by rw [body]; rfl
  have eval := evalSourceSelect_eq (s := s) body
  refine ⟨fun running defined still other => ?_, fun running defined still current => ?_, fun refused => ?_,
    fun running defined flying => ?_⟩
  · rw [Program.running, running, defined, Program.swapping, still, if_neg other] at eval
    exact exec_taken (c := .sourceSelect m) rfl rfl h length eval
  · rw [Program.running, running, defined, Program.swapping, still, if_pos current] at eval
    rw [selectCurrent_eq] at eval
    have done := exec_taken (c := .sourceSelect m) rfl rfl h length eval
    have active : (s.prog p).active = true := (Program.active_iff _).2 (.inl running)
    have before : (s.setProg p ((s.prog p).alone r)).prog p = (s.prog p).alone r := State.setProg_prog_self ..
    have on : ((s.setProg p ((s.prog p).alone r)).prog p).active = true := by rw [before]; exact active
    have swap (law : SourceLaw s) := selectCurrent_swap (r := r) law active rfl
    have effect := (ProgEffect.setProg p s ((s.prog p).alone r)).trans (.eligibilityEvent p _)
    obtain ⟨-, timer, -⟩ := eligibilityEvent_judged on rfl
    have record := eligibilityEvent_prog on
    rw [before] at record timer
    obtain ⟨w, n, fell, same⟩ := eventful_eq ((s.prog p).alone r) (s.setProg p ((s.prog p).alone r))
      ((s.setProg p ((s.prog p).alone r)).progCond p .noSource)
    rw [same] at record
    generalize eligibilityEvent p (s.setProg p ((s.prog p).alone r)) = t at *
    refine ⟨_, done, ?_, ?_, ?_, ?_, swap, replying_reply effect.quiet.unitAddr .., effect.prog, effect.feeds,
      effect.quiet.store⟩
    · rw [replying_prog, record]; rfl
    · rw [replying_prog, record]; exact (s.prog p).alone_markAt_self r
    · exact timer.trans (ite_self _)
    · rw [replying_prog, record]; rfl
  · refine exec_denied (c := .sourceSelect m) (st := .wrongState) rfl rfl h length (eval.trans ?_)
    obtain still | absent := refused
    · rw [Program.running, beq_eq_false_iff_ne.2 still]; rfl
    · rw [absent, Option.isSome_none, Bool.and_false]; rfl
  · rw [Program.running, running, defined, Program.swapping, bne_iff_ne.2 flying] at eval
    exact exec_denied (c := .sourceSelect m) (st := .busy) rfl rfl h length eval

end

end Sys2Proof.Machine
end

section
/-! PROOFS. LOUD_CONFIG and LOUD_RESTART: the pending settings, and the measurement emptied. -/
namespace Sys2Proof.Machine

/-! ## The continuous settings of a LOUD_CONFIG (R99) -/

/-- The ranges of the continuous settings, in the order of the body. -/
def levelRanges : List (Int × Int) :=
  [(-400, -100), (0, 300), (0, 200), (1, 50), (1, 100), (0, 100), (10, 300), (-100, 0), (-300, 120), (-900, -300), (0, 600)]

theorem wordAt_words {vals : List (BitVec 16)} (rest : List Byte) {i : Nat} {v : BitVec 16} (h : vals[i]? = some v) :
    wordAt (vals.flatMap (fun v => byte2 v.toNat) ++ rest) (2 * i) = v.toNat := by
  induction vals generalizing i with
  | nil => simp at h
  | cons w vals ih =>
    rw [List.flatMap_cons, List.append_assoc]
    cases i with
    | zero =>
      obtain rfl : w = v := by simpa using h
      rw [Nat.mul_zero, wordAt_byte2, Nat.mod_eq_of_lt w.isLt]
    | succ i => exact ih (by simpa using h)

theorem signedAt_words {vals : List (BitVec 16)} {a b : Byte} (rest : List Byte) {i : Nat} {v : BitVec 16}
    (h : vals[i]? = some v) :
    signedAt ([a, b] ++ vals.flatMap (fun v => byte2 v.toNat) ++ rest) (2 + 2 * i) = v.toInt := by
  have word : wordAt ([a, b] ++ vals.flatMap (fun v => byte2 v.toNat) ++ rest) (2 + 2 * i) = v.toNat := by
    rw [Nat.add_comm]; exact wordAt_words rest h
  rw [signedAt, word, BitVec.ofNat_toNat, BitVec.setWidth_eq]

theorem readLevels_eq {vals : List (BitVec 16)} {a b : Byte} {rest : List Byte} (all : vals.length = 11) :
    readLevels ([a, b] ++ vals.flatMap (fun v => byte2 v.toNat) ++ rest) =
      List.zipWith (fun r x => contField r.1 r.2 x) levelRanges (vals.map (·.toInt)) := by
  refine List.ext_getElem? fun i => ?_
  have ranges : readLevels ([a, b] ++ vals.flatMap (fun v => byte2 v.toNat) ++ rest) = levelRanges.mapIdx fun i r =>
    contField r.1 r.2 (signedAt ([a, b] ++ vals.flatMap (fun v => byte2 v.toNat) ++ rest) (2 + 2 * i)) := rfl
  rw [ranges, List.getElem?_mapIdx, List.getElem?_zipWith, List.getElem?_map]
  have long : levelRanges.length = 11 := rfl
  by_cases inside : i < 11
  · rw [List.getElem?_eq_getElem (by omega : i < levelRanges.length), List.getElem?_eq_getElem (by omega : i < vals.length)]
    simp only [Option.map_some]
    rw [signedAt_words rest (List.getElem?_eq_getElem (by omega : i < vals.length))]
  · rw [List.getElem?_eq_none (by omega), List.getElem?_eq_none (by omega)]
    rfl

/-- A clamp is made exactly where a value stored differs from the value sent. -/
theorem any_adjusted {ranges : List (Int × Int)} (order : ∀ r ∈ ranges, r.1 ≤ r.2) {xs : List Int}
    (all : xs.length = ranges.length) : (List.zipWith (fun r x => contField r.1 r.2 x) ranges xs).any (·.adjusted) =
      decide (xs ≠ List.zipWith (fun r x => clampInt r.1 r.2 x) ranges xs) := by
  induction ranges generalizing xs with
  | nil => simp at all; simp [all]
  | cons r ranges ih =>
    cases xs with
    | nil => simp at all
    | cons x xs =>
      have rest := ih (fun r hr => order r (List.mem_cons_of_mem _ hr)) (by simpa using all)
      have here : r.1 ≤ r.2 := order r List.mem_cons_self
      have first : (contField r.1 r.2 x).adjusted = decide (x ≠ clampInt r.1 r.2 x) := by
        rw [contField, decide_eq_decide]; unfold clampInt; omega
      rw [List.zipWith_cons_cons, List.any_cons, rest, first, List.zipWith_cons_cons]
      rw [Bool.eq_iff_iff]
      simp only [Bool.or_eq_true, decide_eq_true_eq, ne_eq, List.cons.injEq]
      exact not_and_or.symm

/-- The settings stored are the values clamped. -/
theorem settingsOf_levels (mode : LoudMode) (body : List Byte) (link : Nat) :
    let set := settingsOf mode (readLevels body) link
    [set.target, set.cutMax, set.boostMax, set.rise, set.fall, (set.holdOff : Int), (set.window : Int), set.ceiling,
      set.overThreshold, set.silenceThreshold, (set.silenceTime : Int)] = (readLevels body).map (·.stored) := by
  have natural (i : Nat) (lo hi : Int) (low : 0 ≤ lo) (order : lo ≤ hi)
      (h : [((-400 : Int), (-100 : Int)), (0, 300), (0, 200), (1, 50), (1, 100), (0, 100), (10, 300), (-100, 0),
        (-300, 120), (-900, -300), (0, 600)][i]? = some (lo, hi)) :
      ((levelAt (readLevels body) i).toNat : Int) = levelAt (readLevels body) i := by
    rw [levelAt_readLevels body i _ h, Int.toNat_of_nonneg (low.trans (clampInt_mem order _).1)]
  simp only [settingsOf, natural 5 0 100 (by decide) (by decide) rfl, natural 6 10 300 (by decide) (by decide) rfl,
    natural 10 0 600 (by decide) (by decide) rfl]
  rfl

section
variable {s : State} {m : Msg} {p : ProgId}

theorem evalLoudConfig_legal {mode : LoudMode} {vals : List (BitVec 16)} {link : Nat} (all : vals.length = 11)
    (legal : link ≤ 4)
    (body : m.body = [BitVec.ofNat 8 p.val, BitVec.ofNat 8 mode.code] ++ vals.flatMap (fun v => byte2 v.toNat) ++
      [BitVec.ofNat 8 link]) :
    evalLoudConfig m.body s = (require ((s.prog p).state != .undefined) .wrongState).bind fun _ => .ok
      { adjusted := (readLevels m.body).any (·.adjusted)
        fields := (settingsOf mode (readLevels m.body) link).fields
        after := s.onProg p fun g =>
          { g with loud := { g.loud with pending := settingsOf mode (readLevels m.body) link } } } := by
  have prog : byteAt m.body 0 = (BitVec.ofNat 8 p.val).toNat := by rw [body]; rfl
  have code : byteAt m.body 1 = (BitVec.ofNat 8 mode.code).toNat := by rw [body]; rfl
  have last : byteAt m.body 24 = link := by
    have long : ([BitVec.ofNat 8 p.val, BitVec.ofNat 8 mode.code] ++ vals.flatMap (fun v => byte2 v.toNat)).length = 24 := by
      rw [List.length_append, length_flatMap_const (n := 2) fun v : BitVec 16 => byte2_length v.toNat, all]; rfl
    rw [byteAt, body, List.getD_eq_getElem?_getD, List.getElem?_append_right (by rw [long]), long]
    simp; omega
  have group : linkOfCode link = some link := if_pos legal
  simp only [evalLoudConfig, prog, code, last, group, progIndex_val, modeOfCode_val, enumField, bind, Except.bind]

/-- Settles O37: the pending copy by the levels read, and the measurement by its record. -/
theorem loudConfigAndRestart : Obligations.LoudConfigAndRestart := by
  refine fun s m p h => ⟨fun mode vals link all legal body => ?_, fun body => ?_⟩
  · have length : Kind.loudConfig.lengthOk m.body.length = true := by
      rw [body, List.length_append, List.length_append, length_flatMap_const (n := 2) fun v : BitVec 16 => byte2_length v.toNat,
        all]; rfl
    have eval := evalLoudConfig_legal (s := s) all legal body
    have levels := readLevels_eq (a := BitVec.ofNat 8 p.val) (b := BitVec.ofNat 8 mode.code) (rest := [BitVec.ofNat 8 link]) all
    rw [← body] at levels
    have stored := settingsOf_levels mode m.body link
    have range := settingsOf_inRange mode m.body legal
    have adjusted := any_adjusted (ranges := levelRanges) (xs := vals.map (·.toInt)) (by decide)
      (by rw [List.length_map, all]; rfl)
    rw [← levels] at adjusted
    have clamped : (readLevels m.body).map (·.stored) =
        List.zipWith (fun r x => clampInt r.1 r.2 x) levelRanges (vals.map (·.toInt)) := by
      rw [levels, List.map_zipWith]; rfl
    rw [clamped] at stored
    refine ⟨fun defined => ?_, fun undefined => ?_⟩
    · rw [bne_iff_ne.2 defined] at eval
      refine ⟨settingsOf mode (readLevels m.body) link, ?_, range, rfl, rfl, stored⟩
      refine (exec_clamped (c := .loudConfig m) rfl rfl h length eval).trans ?_
      rw [adjusted]
      have byte (c : Prop) [Decidable c] : (if decide (¬c) then 1 else 0 : Byte) = if c then 0 else 1 := by
        by_cases c <;> simp [*]
      exact congrArg Host.Outcome.next (congrArg₂ (replying .loudConfig) (congrArg (List.cons · _) (byte _)) rfl)
    · rw [undefined] at eval
      exact exec_denied (c := .loudConfig m) (st := .wrongState) rfl rfl h length eval
  · have length : Kind.loudRestart.lengthOk m.body.length = true := by rw [body]; rfl
    have eval : evalLoudRestart m.body s = (require ((s.prog p).state != .undefined) .wrongState).bind fun _ => .ok
        { after := restartMeasurement p s } := by
      simp only [body, evalLoudRestart, byteAt_zero, progIndex_val]; rfl
    refine ⟨fun defined => ?_, fun undefined => ?_⟩
    · rw [bne_iff_ne.2 defined] at eval
      have done := exec_taken (c := .loudRestart m) rfl rfl h length eval
      have effect : ProgEffect p s (restartMeasurement p s) := (ProgEffect.onProg p s _).trans (.setSilence_false p _)
      have record : (restartMeasurement p s).prog p = _ := (setProgCond_false_prog ..).trans (State.setProg_prog_self ..)
      have silence : (restartMeasurement p s).progCond p .silence = false :=
        (setProgCond_false_progCond ..).trans (if_pos ⟨rfl, rfl⟩)
      generalize restartMeasurement p s = t at *
      exact ⟨_, done, silence, record, effect.prog, effect.feeds, replying_reply effect.quiet.unitAddr .., effect.quiet.store⟩
    · rw [undefined] at eval
      exact exec_denied (c := .loudRestart m) (st := .wrongState) rfl rfl h length eval

end

end Sys2Proof.Machine
end

section
/-! PROOFS. DELAY_TARGET and the events of a delay operation. -/
namespace Sys2Proof.Machine

/-! ## DELAY_TARGET (R118, R120, R122, R124) -/

section
variable {s : State} {m : Msg} {p : ProgId}

theorem recomputeDelay_conds (active : (s.prog p).active = true) :
    (recomputeDelay p s).progCond p .latencyUnder = decide (wantedDelay s (s.prog p) < 0) ∧
      (recomputeDelay p s).progCond p .latencyOver =
        decide (ringBound s (s.prog p) < wantedDelay s (s.prog p)) := by
  unfold recomputeDelay
  rw [if_pos active]
  exact ⟨(moveTarget_cond p _ _).trans (judgeLatency_low p s), (moveTarget_cond p _ _).trans (judgeLatency_high p s)⟩

theorem recomputeDelay_kept (p : ProgId) (s : State) : (s.prog p).Kept ((recomputeDelay p s).prog p) :=
  (FeedEffect.recomputeDelay 0 p s).prog p

/-- A recomputation follows the target and the bound of the equation as the state before it has them. -/
theorem recomputeDelay_follows (active : (s.prog p).active = true) :
    ((recomputeDelay p s).prog p).delay.dtgt = delayTargetOf s (s.prog p) ∧
      DelayFollows (ringBound s (s.prog p)) (s.prog p) ((recomputeDelay p s).prog p) := by
  have same : SameEquation s (s.prog p) (recomputeDelay p s) ((recomputeDelay p s).prog p) :=
    .ofKept (recomputeDelay_kept p s) (ProgEffect.recomputeDelay p s).feeds
  obtain ⟨dtgt, follows⟩ := recomputeDelay_aimed active
  rw [same.target] at dtgt
  rw [same.bound] at follows
  exact ⟨dtgt, follows⟩

theorem longAt_byte4 {n : Nat} (small : n < 2 ^ 32) (b : Byte) (rest : List Byte) : longAt (b :: (byte4 n ++ rest)) 1 = n := by
  have high : wordAt (b :: (byte4 n ++ rest)) 1 = n / 65536 % 65536 := by simp [byte4]
  have low : wordAt (b :: (byte4 n ++ rest)) 3 = n % 65536 := by simp [byte4]
  rw [longAt, high, low]
  omega

/-- The record with the three settings of a DELAY_TARGET stored. -/
def Program.aimedAt (g : Program) (lt sl : Nat) (n : StepInterval) : Program :=
  { g with delay := { g.delay with ltgt := min lt 96000, slewLimit := min sl 4800, interval := n } }

theorem evalDelayTarget_legal {lt sl : Nat} {n : StepInterval} (long : lt < 2 ^ 32) (short : sl < 2 ^ 16)
    (body : m.body = [BitVec.ofNat 8 p.val] ++ byte4 lt ++ byte2 sl ++ [BitVec.ofNat 8 n.code]) :
    evalDelayTarget m.body s = (require ((s.prog p).state != .undefined) .wrongState).bind fun _ => .ok
      { adjusted := decide (96000 < lt) || decide (4800 < sl)
        fields := byte4 (min lt 96000) ++ byte2 (min sl 4800) ++ byte1 n.code ++
          byte4 ((recomputeDelay p (s.setProg p ((s.prog p).aimedAt lt sl n))).prog p).delay.dtgt ++
          latencyBits (recomputeDelay p (s.setProg p ((s.prog p).aimedAt lt sl n))) p
        after := recomputeDelay p (s.setProg p ((s.prog p).aimedAt lt sl n)) } := by
  have prog : byteAt m.body 0 = (BitVec.ofNat 8 p.val).toNat := by rw [body]; rfl
  have interval : byteAt m.body 7 = (BitVec.ofNat 8 n.code).toNat := by rw [body]; rfl
  have target : longAt m.body 1 = lt := by
    rw [body, List.append_assoc, List.append_assoc]; exact longAt_byte4 long ..
  have slew : wordAt m.body 5 = sl := by
    rw [body]; simp [byte4]; omega
  have levels : contField 0 96000 (lt : Int) = _ := contField_upTo 96000 lt
  have limit : contField 0 4800 (sl : Int) = _ := contField_upTo 4800 sl
  simp only [evalDelayTarget, prog, interval, target, slew, levels, limit, progIndex_val, intervalOfCode_val, enumField,
    bind, Except.bind, Int.toNat_natCast]
  rfl

/-- Settles O43, by what a recomputation of the delay follows. -/
theorem delayTargetStores : Obligations.DelayTargetStores := by
  intro s m p lt sl n h long short body
  have length : Kind.delayTarget.lengthOk m.body.length = true := by rw [body]; rfl
  have eval := evalDelayTarget_legal (s := s) long short body
  have byte : (if (decide (96000 < lt) || decide (4800 < sl)) = true then 1 else 0 : Byte) =
      if lt ≤ 96000 ∧ sl ≤ 4800 then 0 else 1 := by
    by_cases inside : lt ≤ 96000 ∧ sl ≤ 4800
    · rw [if_neg (by simp; omega), if_pos inside]
    · rw [if_pos (by simp; omega), if_neg inside]
  have before : (s.setProg p ((s.prog p).aimedAt lt sl n)).prog p = (s.prog p).aimedAt lt sl n :=
    State.setProg_prog_self ..
  refine ⟨fun undefined => ?_, fun defined => ?_, fun active => ?_⟩
  · rw [undefined] at eval
    exact exec_denied (c := .delayTarget m) (st := .wrongState) rfl rfl h length eval
  · have known : ((s.prog p).state != .undefined) = true := by rw [defined]; rfl
    have idle : recomputeDelay p (s.setProg p ((s.prog p).aimedAt lt sl n)) = s.setProg p ((s.prog p).aimedAt lt sl n) := by
      unfold recomputeDelay
      rw [before, if_neg]
      simp [Program.active, Program.aimedAt, defined]
    rw [known, idle, before] at eval
    refine (exec_clamped (c := .delayTarget m) rfl rfl h length eval).trans ?_
    rw [byte]
    rfl
  · have known : ((s.prog p).state != .undefined) = true := by
      obtain h | h := (Program.active_iff _).1 active <;> rw [h] <;> rfl
    rw [known] at eval
    have done := exec_clamped (c := .delayTarget m) rfl rfl h length eval
    have on : ((s.setProg p ((s.prog p).aimedAt lt sl n)).prog p).active = true := by rw [before]; exact active
    have same : SameEquation s ((s.prog p).aimedAt lt sl n) (s.setProg p ((s.prog p).aimedAt lt sl n))
        ((s.prog p).aimedAt lt sl n) := .of rfl rfl rfl rfl
    have effect := (ProgEffect.setProg p s ((s.prog p).aimedAt lt sl n)).trans (.recomputeDelay p _)
    obtain ⟨low, high⟩ := recomputeDelay_conds on
    obtain ⟨dtgt, follows⟩ := recomputeDelay_follows on
    obtain ⟨rest, delay⟩ := recomputeDelay_kept p (s.setProg p ((s.prog p).aimedAt lt sl n))
    rw [before] at low high dtgt follows rest delay
    rw [same.wanted] at low high
    rw [same.bound] at high follows
    rw [same.target] at dtgt
    rw [byte] at done
    unfold DelayRec.Kept at delay
    generalize recomputeDelay p (s.setProg p ((s.prog p).aimedAt lt sl n)) = t at *
    refine ⟨_, done, ?_, ?_, ?_, dtgt, follows, ?_, ?_, ?_, ?_, effect.prog, effect.feeds, effect.quiet.store,
      effect.quiet.freePages⟩
    · rw [replying_prog, delay]; rfl
    · rw [replying_prog, delay]; rfl
    · rw [replying_prog, delay]; rfl
    · exact (Bool.eq_iff_iff.1 low).trans decide_eq_true_iff
    · exact (Bool.eq_iff_iff.1 high).trans decide_eq_true_iff
    · exact replying_reply effect.quiet.unitAddr ..
    · rw [replying_prog, rest]; rfl

end

/-! ## The events of a delay operation (R121 to R126) -/

theorem Program.chooseOp_short (g : Program) (apart : g.delay.dcur ≠ g.delay.dtgt)
    (short : ((g.delay.dtgt : Int) - g.delay.dcur).natAbs ≤ g.delay.slewLimit) :
    g.chooseOp = { g with delay := g.delay.beginStep } := by
  rw [Program.chooseOp, DelayRec.distance_eq_gap, if_neg (by omega), if_pos short]

theorem Program.chooseOp_long (g : Program) (long : g.delay.slewLimit < ((g.delay.dtgt : Int) - g.delay.dcur).natAbs) :
    g.chooseOp = g.beginCut := by
  rw [Program.chooseOp, DelayRec.distance_eq_gap, if_neg (by omega), if_neg (by omega)]

theorem slewComplete_moved (p : ProgId) (s : State) : slewComplete p s =
    if (s.prog p).delay.stepped (ringBound s (s.prog p)) = (s.prog p).delay.dtgt then
      settleNotice p (s.setProg p
        { s.prog p with delay := ((s.prog p).delay.movedStep (ringBound s (s.prog p))).noOp })
    else s.setProg p
      { s.prog p with delay := ((s.prog p).delay.movedStep (ringBound s (s.prog p))).beginStep } := by
  rw [slewComplete_eq]
  refine if_congr ?_ rfl rfl
  rw [DelayRec.distance_eq_gap]
  unfold DelayRec.movedStep
  dsimp only
  omega

/-- A SLEW settles, or a CUT, with Dcur of the record stored in its notice. -/
theorem settleNotice_setProg (p : ProgId) (x : Program) (s : State) :
    settleNotice p (s.setProg p x) = pushNotice .delaySettled (.program p) (byte4 x.delay.dcur) (s.setProg p x) := by
  rw [settleNotice, State.setProg_prog_self]

theorem DelayRec.stepped_eq (d : DelayRec) (bound : Int) :
    d.stepped bound = if d.dir = .up then min (d.dcur + 1) bound.toNat else d.dcur - 1 := by
  unfold DelayRec.stepped
  cases d.dir <;> rfl

/-- The record at the top of a CUT, with no operation in flight. -/
def Program.cutOver (g : Program) : Program := { g with delay := g.delay.noOp }

theorem cutInEnd_eq (p : ProgId) (s : State) : cutInEnd p s =
    if (s.prog p).delay.distance = 0 then settleNotice p (s.setProg p (s.prog p).cutOver)
    else s.setProg p (s.prog p).cutOver.chooseOp := rfl

/-- Settles O44, event by event. -/
theorem delayOperationEvents : Obligations.DelayOperationEvents := by
  intro s p live
  dsimp only
  rw [← DelayRec.stepped_eq]
  refine ⟨fun slew ran _ there => ?_, fun slew ran _ short => ?_, fun out level => ?_, fun back level there => ?_,
    fun back level apart near => ?_, fun back level far => ?_⟩
  · have due : slewIsDue s p = true := by simp [slewIsDue, slew, ran]
    refine (onUnit_running live).trans ?_
    rw [if_pos due, slewComplete_moved, if_pos there, settleNotice_setProg]
    rfl
  · have due : slewIsDue s p = true := by simp [slewIsDue, slew, ran]
    refine (onUnit_running live).trans ?_
    rw [if_pos due, slewComplete_moved, if_neg short]
    rfl
  · have due : cutJumpIsDue s p = true := by simp [cutJumpIsDue, out, level]
    refine (onUnit_running live).trans ?_
    rw [if_pos due]
    rfl
  · have due : cutInIsDue s p = true := by simp [cutInIsDue, back, level, Config.fadeFull]
    refine (onUnit_running live).trans ?_
    rw [if_pos due, cutInEnd_eq, if_pos (by rw [DelayRec.distance_eq_gap]; omega), settleNotice_setProg]
    rfl
  · have due : cutInIsDue s p = true := by simp [cutInIsDue, back, level, Config.fadeFull]
    refine (onUnit_running live).trans ?_
    rw [if_pos due, cutInEnd_eq, if_neg (by rw [DelayRec.distance_eq_gap]; omega), (s.prog p).cutOver.chooseOp_short apart near]
    rfl
  · have due : cutInIsDue s p = true := by simp [cutInIsDue, back, level, Config.fadeFull]
    refine (onUnit_running live).trans ?_
    rw [if_pos due, cutInEnd_eq, if_neg (by rw [DelayRec.distance_eq_gap]; omega), (s.prog p).cutOver.chooseOp_long far]
    rfl

end Sys2Proof.Machine
end

section
/-! PROOFS. Rounding of levels and means; the rings of the Delay Store, and who writes it. -/
namespace Sys2Proof.Machine

/-! ## Levels and means (R84, 00_scope.md section 5) -/

/-- The level found is in range; it is reached unless it is the lowest, and the next is not unless it is the highest. -/
theorem levelFrom_spec (P : Rat) : ∀ k : Nat, -900 ≤ levelFrom P k ∧ levelFrom P k ≤ -900 + k ∧
    (-900 < levelFrom P k → levelReaches P (levelFrom P k) = true) ∧
    (levelFrom P k < -900 + k → levelReaches P (levelFrom P k + 1) = false)
  | 0 => by
    refine ⟨le_rfl, by simp [levelFrom], fun h => ?_, fun h => ?_⟩
    · simp [levelFrom] at h
    · simp [levelFrom] at h
  | k + 1 => by
    obtain ⟨low, high, reached, passed⟩ := levelFrom_spec P k
    rw [levelFrom]
    split
    · next here => exact ⟨by omega, le_rfl, fun _ => here, fun h => absurd h (lt_irrefl _)⟩
    · next missed =>
      refine ⟨low, by omega, reached, fun _ => ?_⟩
      by_cases top : levelFrom P k < -900 + k
      · exact passed top
      · rw [show levelFrom P k + 1 = -900 + (k + 1 : Nat) by omega]
        exact Bool.eq_false_iff.2 missed

theorem mean_rounds {l : List Int} (some : l ≠ []) :
    2 * l.sum - l.length < 2 * l.length * mean l ∧ 2 * l.length * mean l ≤ 2 * l.sum + l.length := by
  have count : 0 < 2 * (l.length : Int) := by have := List.length_pos_of_ne_nil some; omega
  have low := Int.mul_ediv_self_le (x := 2 * l.sum + l.length) count.ne'
  have high := Int.lt_mul_ediv_self_add (x := 2 * l.sum + l.length) count
  unfold mean
  generalize 2 * (l.length : Int) * ((2 * l.sum + l.length) / (2 * l.length)) = q at *
  omega

/-- Settles O39, by the level found and by the quotient of the mean. -/
theorem blockLevelAndMeanRound : Obligations.BlockLevelAndMeanRound := by
  refine ⟨fun P => ?_, fun l some => mean_rounds some⟩
  by_cases silent : P ≤ 0
  · have level : blockLevel P = -900 := if_pos silent
    rw [level]
    exact ⟨le_rfl, by decide, fun _ => rfl, fun pos => absurd silent (not_le.2 pos), fun pos => absurd silent (not_le.2 pos)⟩
  · have level : blockLevel P = levelFrom P 1020 := if_neg silent
    obtain ⟨low, high, reached, passed⟩ := levelFrom_spec P 1020
    rw [level]
    refine ⟨low, high, fun none => absurd none silent, fun _ above => ?_, fun _ below => ?_⟩
    · exact of_decide_eq_true (reached above)
    · have missed := of_decide_eq_false (passed below)
      rw [show 2 * (levelFrom P 1020 + 1) - 1 = 2 * levelFrom P 1020 + 1 by omega] at missed
      exact not_le.1 missed

/-! ## Addresses of the rings (R114) -/

section
variable {d : DelayRec} {c k j x y : Nat}

/-- A place of a ring is on a page of the chain. -/
theorem DelayRec.place_lt (pages : d.chain.length = c * d.reserve) (slot : k < c) (inside : x < d.ringSize) :
    k * d.reserve + x / Config.pageSamples < d.chain.length := by
  have page : x / Config.pageSamples < d.reserve := Nat.div_lt_of_lt_mul (by rw [Nat.mul_comm]; exact inside)
  calc k * d.reserve + x / Config.pageSamples < k * d.reserve + d.reserve := by omega
    _ = (k + 1) * d.reserve := by ring
    _ ≤ c * d.reserve := Nat.mul_le_mul_right _ slot
    _ = d.chain.length := pages.symm

/-- Two places of the rings of one program share an address only where they are the same place. -/
theorem DelayRec.address_inj (once : d.chain.Nodup) (pages : d.chain.length = c * d.reserve) (hk : k < c) (hj : j < c)
    (hx : x < d.ringSize) (hy : y < d.ringSize) (same : d.address k x = d.address j y) : k = j ∧ x = y := by
  have size : Config.pageSamples = 1024 := rfl
  have ik := DelayRec.place_lt pages hk hx
  have ij := DelayRec.place_lt pages hj hy
  have px : x / 1024 < d.reserve := Nat.div_lt_of_lt_mul (by rw [Nat.mul_comm]; exact hx)
  have py : y / 1024 < d.reserve := Nat.div_lt_of_lt_mul (by rw [Nat.mul_comm]; exact hy)
  unfold DelayRec.address at same
  rw [size] at same ik ij
  rw [List.getD_eq_getElem _ _ ik, List.getD_eq_getElem _ _ ij] at same
  have page : d.chain[k * d.reserve + x / 1024] = d.chain[j * d.reserve + y / 1024] := by omega
  have place := (once.getElem_inj_iff).1 page
  have slot : k = j := by
    have hk := Nat.mul_add_div (by omega : 0 < d.reserve) k (x / 1024)
    have hj := Nat.mul_add_div (by omega : 0 < d.reserve) j (y / 1024)
    rw [Nat.div_eq_of_lt px] at hk
    rw [Nat.div_eq_of_lt py] at hj
    rw [Nat.mul_comm d.reserve, place] at hk
    rw [Nat.mul_comm d.reserve] at hj
    omega
  subst slot
  exact ⟨rfl, by omega⟩

end

/-! ## Ring writes (R116) -/

/-- A ring write leaves every address but the write positions of its slots. -/
theorem DelayRec.writeSlots_read_ne {d : DelayRec} {a : Nat} : ∀ {xs : List Rat} {k : Nat} {m : Memory},
    (∀ i < xs.length, a ≠ d.address (k + i) d.writePos) → (d.writeSlots k xs m).read a = m.read a
  | [], _, _, _ => rfl
  | x :: xs, k, m, h => by
    rw [DelayRec.writeSlots, writeSlots_read_ne fun i hi => ?_, Memory.read_write_ne (show a ≠ d.address k d.writePos from h 0 (by simp))]
    rw [Nat.add_assoc, Nat.add_comm 1]
    exact h (i + 1) (by simpa using hi)

/-- Each slot's sample stands at its write position, where these are different addresses. -/
theorem DelayRec.writeSlots_read {d : DelayRec} : ∀ {xs : List Rat} {k : Nat} {m : Memory}, m.wf = true →
    (∀ i < xs.length, ∀ j < xs.length, d.address (k + i) d.writePos = d.address (k + j) d.writePos → i = j) →
    ∀ i x, xs[i]? = some x → (d.writeSlots k xs m).read (d.address (k + i) d.writePos) = x
  | [], _, _, _, _, i, x, h => by simp at h
  | x :: xs, k, m, wf, apart, 0, y, h => by
    obtain rfl : x = y := by simpa using h
    rw [DelayRec.writeSlots, writeSlots_read_ne fun i hi same => ?_, Nat.add_zero, Memory.read_write_self _ _ _ wf]
    rw [Nat.add_assoc, Nat.add_comm 1] at same
    exact absurd (apart 0 (by simp) (i + 1) (by simpa using hi) same) (by omega)
  | x :: xs, k, m, wf, apart, i + 1, y, h => by
    have rest := writeSlots_read (d := d) (xs := xs) (k := k + 1) (Memory.write_wf (d.address k d.writePos) x wf)
      (fun i hi j hj same => ?_) i y (by simpa using h)
    · rw [DelayRec.writeSlots, ← Nat.add_assoc k, Nat.add_right_comm]
      exact rest
    · rw [Nat.add_assoc, Nat.add_comm 1, Nat.add_assoc, Nat.add_comm 1] at same
      have := apart (i + 1) (by simpa using hi) (j + 1) (by simpa using hj) same
      omega

/-! ## What a ring returns (R116, R117) -/

theorem DelayRec.advance_eq_mod {d : DelayRec} (inside : d.writePos < d.ringSize) :
    d.advance.writePos = (d.writePos + 1) % d.ringSize := by
  change (if d.writePos + 1 < d.ringSize then d.writePos + 1 else 0) = _
  split
  · next h => rw [Nat.mod_eq_of_lt h]
  · next h => rw [show d.writePos + 1 = d.ringSize by omega, Nat.mod_self]

theorem DelayRec.writeSlots_apart {d : DelayRec} {c : Nat} (once : d.chain.Nodup) (pages : d.chain.length = c * d.reserve)
    (inside : d.writePos < d.ringSize) (i : Nat) (hi : i < c) (j : Nat) (hj : j < c)
    (same : d.address (0 + i) d.writePos = d.address (0 + j) d.writePos) : i = j := by
  rw [Nat.zero_add, Nat.zero_add] at same
  exact (DelayRec.address_inj once pages hi hj inside inside same).1

/-- A place read back from the write position of an advanced ring is one further on. -/
theorem ring_place {w R back : Nat} (inside : w < R) (round : back + 1 < R) :
    ((w + 1) % R + R - (back + 1)) % R = (w + R - back) % R ∧ (w + R - back) % R ≠ (w + 1) % R := by
  by_cases last : w + 1 = R
  · rw [last, Nat.mod_self]
    have far : w + R - back = (R - (back + 1)) + R := by omega
    rw [far, Nat.add_mod_right, Nat.zero_add]
    refine ⟨rfl, ?_⟩
    rw [Nat.mod_eq_of_lt (by omega)]
    omega
  · rw [Nat.mod_eq_of_lt (show w + 1 < R by omega)]
    refine ⟨by rw [show w + 1 + R - (back + 1) = w + R - back by omega], ?_⟩
    by_cases near : back ≤ w
    · rw [show w + R - back = (w - back) + R by omega, Nat.add_mod_right, Nat.mod_eq_of_lt (by omega)]
      omega
    · rw [Nat.mod_eq_of_lt (by omega)]
      omega

/-- Settles O45: a sample written stands at the write position, and the next write position is none of those read. -/
theorem ringDelaysSamples : Obligations.RingDelaysSamples := by
  refine ⟨fun d m k trim => ⟨fun back flushed => if_pos flushed, fun still => if_neg still, fun slew => ?_⟩, ?_⟩
  · unfold DelayRec.readSlot
    rw [if_pos slew]
    cases d.dir with
    | up => dsimp only; ring
    | down => dsimp only; ring
  · intro d c k back xs ys m wf once pages hx hy slot reserve inside flush
    have size : 1024 ≤ d.ringSize := Nat.mul_le_mul_right 1024 reserve
    have written : d.countWritten.flushCounter = min (d.flushCounter + 1) d.ringSize := rfl
    refine ⟨?_, fun round => ?_⟩
    · have place : (d.writePos + d.ringSize - 0) % d.ringSize = d.writePos := by
        rw [Nat.sub_zero, Nat.add_mod_right, Nat.mod_eq_of_lt inside]
      have here : xs[k]? = some (xs.getD k 0) := by
        rw [List.getD_eq_getElem _ _ (by omega)]; exact List.getElem?_eq_getElem _
      have stored := DelayRec.writeSlots_read wf (d := d) (k := 0)
        (by rw [hx]; exact DelayRec.writeSlots_apart once pages inside) k _ here
      rw [Nat.zero_add] at stored
      rw [DelayRec.ringRead, written, if_neg (by omega)]
      exact (congrArg (fun x => (d.writeSlots 0 xs m).read (d.address k x)) place).trans stored
    · obtain ⟨place, other⟩ := ring_place inside round
      have next := DelayRec.advance_eq_mod inside
      have advanced : d.countWritten.advance.countWritten.flushCounter =
        min (min (d.flushCounter + 1) d.ringSize + 1) d.ringSize := rfl
      have kept : (d.countWritten.advance.writeSlots 0 ys (d.writeSlots 0 xs m)).read
          (d.address k ((d.writePos + d.ringSize - back) % d.ringSize)) =
            (d.writeSlots 0 xs m).read (d.address k ((d.writePos + d.ringSize - back) % d.ringSize)) := by
        refine DelayRec.writeSlots_read_ne fun i hi same => ?_
        rw [Nat.zero_add, hy] at *
        have apart := DelayRec.address_inj (d := d) once pages slot hi (Nat.mod_lt _ (by omega))
          (y := d.advance.writePos) (DelayRec.advance_writePos inside) same
        exact other (apart.2.trans next)
      have at_ : (d.countWritten.advance.writePos + d.ringSize - (back + 1)) % d.ringSize =
          (d.writePos + d.ringSize - back) % d.ringSize := by
        rw [← place, ← next]; rfl
      unfold DelayRec.ringRead
      dsimp only
      rw [advanced, written]
      by_cases flushed : min (d.flushCounter + 1) d.ringSize ≤ back
      · rw [if_pos flushed, if_pos (by omega)]
      · rw [if_neg flushed, if_neg (by omega)]
        exact (congrArg (fun x => (d.countWritten.advance.writeSlots 0 ys (d.writeSlots 0 xs m)).read (d.address k x))
          at_).trans kept

end Sys2Proof.Machine
end

section
/-! PROOFS. One output sample, program by program: what each is served, and what it writes. -/
namespace Sys2Proof.Machine

/-! ## Before the programs (R20, R32) -/

/-- The state an output sample serves the programs in: the ticks left have passed and the converters have advanced. -/
def sampleReady (s : State) : State :=
  forEach allFeeds converterSample (passTicks (Config.ticksPerSample - s.tick) s)

/-- The frames the converters deliver at an output sample. -/
def sampleFrames (s : State) : List (Rat × Rat) := allFeeds.map fun f => ((sampleReady s).feed f).conv.delivered

/-- The programs of a list served at an output sample, in its order. -/
def served (frames : List (Rat × Rat)) (l : List ProgId) (u : State) : State := forEach l (programSample frames) u

theorem outputSample_eq (s : State) : outputSample s =
    { served (sampleFrames s) allProgs (sampleReady s) with
      tick := 0
      sampleInBlock := satAdd Config.blockSamples (served (sampleFrames s) allProgs (sampleReady s)).sampleInBlock 1 } := rfl

theorem passTicks_left (n : Nat) (s : State) :
    (passTicks n s).progs = s.progs ∧ (passTicks n s).store = s.store := by
  have ports := forEach_proj (f := fun f (t : State) => t.onPort f (Port.pass n)) (π := fun t => (t.progs, t.store))
    (fun _ _ => rfl) allFeeds s
  unfold passTicks
  dsimp only
  generalize forEach allFeeds _ s = t at ports ⊢
  exact ⟨congrArg Prod.fst ports, congrArg Prod.snd ports⟩

theorem passTicks_prog (n : Nat) (s : State) (p : ProgId) : (passTicks n s).prog p = s.prog p :=
  State.prog_congr (passTicks_left n s).1 p

/-- The converters reach a program's swap, marks, return timer and delay operation, and nothing else of it. -/
theorem sampleReady_kept (s : State) (p : ProgId) : (s.prog p).Kept ((sampleReady s).prog p) := by
  have kept := forEach_relation (R := fun a b => (a.prog p).Kept (b.prog p)) (f := converterSample) (fun _ => .refl _)
    .trans (fun f t => (FeedEffect.keepConverter f _ t).prog p) allFeeds (passTicks (Config.ticksPerSample - s.tick) s)
  rw [passTicks_prog] at kept
  exact kept

theorem sampleReady_store (s : State) : (sampleReady s).store = s.store :=
  (forEach_relation .refl .trans (fun f t => Quiet.converterSample f t) allFeeds _).store.trans (passTicks_left _ s).2

/-! ## One program served (R43, R56, R59, R116) -/

section
variable {frames : List (Rat × Rat)} {p q : ProgId} {u : State}

theorem programSample_feeds : (programSample frames p u).feeds = u.feeds := by
  unfold programSample; dsimp only; split <;> rfl

theorem programSample_prog_ne (other : q ≠ p) : (programSample frames p u).prog q = u.prog q := by
  unfold programSample
  dsimp only
  split
  · exact State.setProg_prog_ne other u _
  · rfl

theorem programSample_store : (programSample frames p u).store =
    if (u.prog p).active then (u.prog p).delay.writeSlots 0 (selectSlots frames (u.prog p)) u.store else u.store := by
  unfold programSample
  dsimp only
  split <;> rfl

/-- The program writes the address at an output sample: it runs or stops, and the address is the write position of one of
its rings (R116). -/
def Program.WritesAt (g : Program) (a : Nat) : Prop :=
  g.active = true ∧ ∃ k < g.currentSet.length, a = g.delay.address k g.delay.writePos

theorem programSample_read {a : Nat} (apart : ¬(u.prog p).WritesAt a) :
    (programSample frames p u).store.read a = u.store.read a := by
  rw [programSample_store]
  split
  · next active =>
    refine DelayRec.writeSlots_read_ne fun i hi same => apart ⟨active, i, ?_, ?_⟩
    · rwa [selectSlots, List.length_map] at hi
    · rwa [Nat.zero_add] at same
  · rfl

theorem programSample_wf (wf : u.store.wf = true) : (programSample frames p u).store.wf = true := by
  rw [programSample_store]
  split
  · exact DelayRec.writeSlots_wf _ _ _ _ wf
  · exact wf

/-! ## The programs in their order -/

theorem served_wf (l : List ProgId) (wf : u.store.wf = true) : (served frames l u).store.wf = true :=
  forEach_induction (P := fun t => t.store.wf = true) (fun _ _ => programSample_wf) l u wf

theorem served_feeds (l : List ProgId) : (served frames l u).feeds = u.feeds :=
  forEach_proj (π := State.feeds) (fun _ _ => programSample_feeds) l u

theorem served_prog_of_notMem {l : List ProgId} (off : p ∉ l) : (served frames l u).prog p = u.prog p := by
  induction l generalizing u with
  | nil => rfl
  | cons q l ih =>
    obtain ⟨other, off⟩ := not_or.1 <| mt List.mem_cons.2 off
    exact (ih off).trans (programSample_prog_ne other)

/-- An address that no program of the list writes is read as before. -/
theorem served_read {a : Nat} {l : List ProgId} (once : l.Nodup) (apart : ∀ q ∈ l, ¬(u.prog q).WritesAt a) :
    (served frames l u).store.read a = u.store.read a := by
  induction l generalizing u with
  | nil => rfl
  | cons p l ih =>
    obtain ⟨fresh, once⟩ := List.nodup_cons.1 once
    refine (ih once fun q hq => ?_).trans (programSample_read (apart p List.mem_cons_self))
    have other : q ≠ p := fun same => fresh (by rwa [← same])
    rw [programSample_prog_ne other]
    exact apart q (List.mem_cons_of_mem p hq)

end

/-! ## Who writes the Delay Store (R43, R116) -/

theorem Program.Kept.writesAt {g h : Program} (k : g.Kept h) (a : Nat) : h.WritesAt a ↔ g.WritesAt a := by
  obtain ⟨rest, delay⟩ := k
  unfold DelayRec.Kept at delay
  have active : h.active = g.active := by rw [rest]; rfl
  have set : h.currentSet = g.currentSet := by rw [rest]; rfl
  have place (k : Nat) : h.delay.address k h.delay.writePos = g.delay.address k g.delay.writePos := by rw [delay]; rfl
  simp only [Program.WritesAt, active, set, place]

/-- Settles O46: the output sample by its programs, every other command by what it leaves alone. -/
theorem storeWrittenOnlyAtWritePositions : Obligations.StoreWrittenOnlyAtWritePositions := by
  intro c s t h
  have alone := (exec_framed h).store
  have sampled (is : c = .outputSample) : t = s ∨
      t.store = (served (sampleFrames s) allProgs (sampleReady s)).store := by
    subst is
    have run : exec .outputSample s = onUnit outputSample s := rfl
    obtain ⟨-, same⟩ | ⟨-, same⟩ := onUnit_next (run.symm.trans h)
    · exact .inl same
    · refine .inr ?_
      rw [same, (SameUnit.judgePins _).store, outputSample_eq]
  refine ⟨fun wf => ?_, alone, fun is wf a apart => ?_⟩
  · by_cases is : c = .outputSample
    · obtain rfl | store := sampled is
      · exact wf
      · rw [store]
        exact served_wf _ (by rw [sampleReady_store]; exact wf)
    · by_cases reset : ∀ u b, c ≠ .powerOnReset u b
      · rw [alone is reset]; exact wf
      · push Not at reset
        obtain ⟨u, b, rfl⟩ := reset
        cases h
        rfl
  · obtain rfl | store := sampled is
    · rfl
    · have once : allProgs.Nodup := List.nodup_finRange 8
      rw [store, served_read once fun p _ writes => ?_, sampleReady_store]
      obtain ⟨active, k, hk, place⟩ := ((sampleReady_kept s p).writesAt a).1 writes
      exact apart p active k hk place

end Sys2Proof.Machine
end

section
/-! PROOFS. One output sample before its programs: the ticks that pass and the converters, as the feeds and the programs
see them. -/
namespace Sys2Proof.Machine

/-! ## The feeds (R12, R15, R32 to R36) -/

/-- A converter has advanced, and a slip has reached its condition. -/
def FeedView.advanced (x : FeedView) : FeedView :=
  FeedView.set { x with conv := x.conv.advance.1 } .srcSlip (x.cond .srcSlip || x.conv.advance.2)

/-- Master ticks have passed on a port. -/
def FeedView.passed (n : Nat) (x : FeedView) : FeedView := { x with port := x.port.pass n }

section
variable {f g : FeedId} {s t : State}

theorem view_ext (feed : t.feed f = s.feed f) (conds : ∀ k, t.feedCond f k = s.feedCond f k) : view t f = view s f := by
  unfold view
  rw [feed, funext conds]

theorem view_follow_ne (other : g ≠ f) (k : FeedCond) (v : Bool) :
    view (follow (feedEntry f k) v s).1 g = view s g := by
  have effect := EntryEffect.follow (feedEntry f k) v s
  refine view_ext (State.feed_congr effect.feeds g) fun j => ?_
  unfold State.feedCond
  rw [follow_cond, if_neg fun same => other (feedEntry_inj same).1]

/-- A condition of a feed leaves the ports, the converters and the conditions of the others. -/
theorem view_setFeedCond_ne (other : g ≠ f) (k : FeedCond) (v : Bool) : view (setFeedCond f k v s) g = view s g := by
  obtain same | judged := setFeedCond_judged f k v s
  · rw [same, view_follow_ne other]
  · rw [judged, view_judgeHealth, view_follow_ne other]

theorem view_setFeed_ne (other : g ≠ f) (x : Feed) : view (s.setFeed f x) g = view s g :=
  view_ext (State.setFeed_feed_ne other s x) fun _ => rfl

theorem view_converterSample : view (converterSample f s) f = (view s f).advanced := by
  unfold converterSample keepConverter FeedView.advanced
  dsimp only
  rw [view_conv]
  cases (s.feed f).conv.advance.2
  · rw [Bool.or_false]
    exact (view_setConv f s _).trans (FeedView.set_same { view s f with conv := _ } .srcSlip).symm
  · rw [Bool.or_true, if_pos rfl, view_setFeedCond, view_setConv]

theorem view_converterSample_ne (other : g ≠ f) : view (converterSample f s) g = view s g := by
  unfold converterSample keepConverter
  dsimp only
  split
  · rw [view_setFeedCond_ne other, view_setFeed_ne other]
  · exact view_setFeed_ne other _

/-- What is done for each feed of a list in turn is done once to each. -/
theorem view_forEach {op : FeedId → State → State} {F : FeedView → FeedView}
    (own : ∀ f s, view (op f s) f = F (view s f)) (apart : ∀ f g s, g ≠ f → view (op f s) g = view s g)
    {l : List FeedId} (once : l.Nodup) (s : State) (f : FeedId) :
    view (forEach l op s) f = if f ∈ l then F (view s f) else view s f := by
  induction l generalizing s with
  | nil => rfl
  | cons g l ih =>
    obtain ⟨fresh, once⟩ := List.nodup_cons.1 once
    rw [forEach_cons, ih once]
    by_cases same : f = g
    · subst same; rw [if_neg fresh, own, if_pos List.mem_cons_self]
    · rw [apart g f s same]; simp [same]

theorem view_passTicks (n : Nat) : view (passTicks n s) f = (view s f).passed n := by
  have once : allFeeds.Nodup := List.nodup_finRange 16
  have mem : f ∈ allFeeds := List.mem_finRange f
  have ports := view_forEach (op := fun f t => t.onPort f (Port.pass n)) (F := FeedView.passed n)
    (fun f s => view_onPort f s _) (fun f g s other => view_setFeed_ne other _) once s f
  rw [if_pos mem] at ports
  unfold passTicks
  dsimp only
  generalize forEach allFeeds _ s = u at ports ⊢
  exact ports

/-- At an output sample every feed's ticks have passed and its converter has advanced, once. -/
theorem view_sampleReady (f : FeedId) : view (sampleReady s) f =
    ((view s f).passed (Config.ticksPerSample - s.tick)).advanced := by
  have once : allFeeds.Nodup := List.nodup_finRange 16
  have mem : f ∈ allFeeds := List.mem_finRange f
  unfold sampleReady
  rw [view_forEach (F := FeedView.advanced) (fun _ _ => view_converterSample) (fun _ _ _ => view_converterSample_ne) once,
    if_pos mem, view_passTicks]

end

/-! ## The programs (R62, R70) -/

/-- What a slip can reach of a program through its feed's health: a swap begins from the present level, a mark stays, a
return timer ends; a program that neither runs nor stops is left whole. -/
structure Readied (g h : Program) : Prop where
  rest : h = { g with
    swap := h.swap, marks := h.marks, returnTimer := h.returnTimer, returnFell := h.returnFell }
  level : h.swap.level = g.swap.level
  still : g.active = false → h = g

namespace Readied

theorem refl (g : Program) : Readied g g := ⟨rfl, rfl, fun _ => rfl⟩

theorem active {g h : Program} (k : Readied g h) : h.active = g.active := by
  rw [k.rest]; rfl

theorem trans {a b c : Program} (h : Readied a b) (g : Readied b c) : Readied a c :=
  ⟨by rw [g.rest, h.rest], g.level.trans h.level, fun off => (g.still (h.active.trans off)).trans (h.still off)⟩

end Readied

section
variable {f : FeedId} {p : ProgId} {s : State}

theorem triggered_level (g : Program) (c : SwapCause) : (g.triggered c).swap.level = g.swap.level := by
  unfold Program.triggered
  cases g.swap.phase <;> rfl

theorem feedTrigger_level (f : FeedId) (b : Bool) (p : ProgId) (s : State) :
    ((feedTrigger f b p s).prog p).swap.level = (s.prog p).swap.level := by
  unfold feedTrigger
  dsimp only
  split
  · rw [State.onProg_eq, State.setProg_prog_self, triggered_level]
  · rfl

/-- The work of a change of health on one program keeps the level of its swap. -/
theorem healthReaches_level (f : FeedId) (p q : ProgId) (s : State) :
    ((healthReaches f p s).prog q).swap.level = (s.prog q).swap.level := by
  by_cases here : q = p
  · subst here
    have event (t : State) : ((eligibilityEvent q t).prog q).swap.level = (t.prog q).swap.level := by
      cases active : (t.prog q).active with
      | false => rw [eligibilityEvent_idle active]
      | true =>
        rw [eligibilityEvent_prog active, eventful_swap]
        split
        · unfold failoverSwap; split <;> rfl
        · rfl
    have reached : ((if (s.prog q).namesFeed f then eligibilityEvent q s else s).prog q).swap.level =
        (s.prog q).swap.level := by
      split
      · exact event s
      · rfl
    unfold healthReaches
    dsimp only
    generalize (if (s.prog q).namesFeed f then eligibilityEvent q s else s) = t at reached ⊢
    split
    · exact reached
    · exact (feedTrigger_level ..).trans reached
  · rw [(ProgEffect.healthReaches f p s).prog q here]

theorem judgeHealth_readied (f : FeedId) (s : State) (p : ProgId) : Readied (s.prog p) ((judgeHealth f s).prog p) := by
  have effect := AlarmEffect.judgeHealth f s
  refine ⟨effect.prog p, ?_, fun off => effect.still p ?_⟩
  · unfold judgeHealth
    dsimp only
    split
    · rfl
    · exact forEach_proj (π := fun t => (t.prog p).swap.level) (fun q t => healthReaches_level f q p t) allProgs _
  · unfold Program.active at off
    exact (Bool.or_eq_false_iff.1 off).1

theorem setFeedCond_readied (f : FeedId) (k : FeedCond) (v : Bool) (s : State) (p : ProgId) :
    Readied (s.prog p) ((setFeedCond f k v s).prog p) := by
  have followed := follow_prog (feedEntry f k) v s p
  obtain same | judged := setFeedCond_judged f k v s
  · rw [same, followed]; exact .refl _
  · have reached := judgeHealth_readied f (follow (feedEntry f k) v s).1 p
    rw [followed] at reached
    rw [judged]
    exact reached

theorem converterSample_readied (f : FeedId) (s : State) (p : ProgId) :
    Readied (s.prog p) ((converterSample f s).prog p) := by
  unfold converterSample keepConverter
  dsimp only
  split
  · exact setFeedCond_readied f .srcSlip true (s.setFeed f _) p
  · exact .refl _

theorem sampleReady_readied (s : State) (p : ProgId) : Readied (s.prog p) ((sampleReady s).prog p) := by
  have reached := forEach_relation (R := fun a b => Readied (a.prog p) (b.prog p)) (fun t => .refl _)
    (fun h g => .trans h g) (fun f t => converterSample_readied f t p) allFeeds
    (passTicks (Config.ticksPerSample - s.tick) s)
  rw [passTicks_prog] at reached
  exact reached

/-- A condition whose entry has no FAILOVER action reaches no program. -/
theorem setFeedCond_progs {k : FeedCond} (inert : (s.entry (feedEntry f k)).config.action ≠ .failover) (v : Bool) :
    (setFeedCond f k v s).progs = s.progs := by
  have effect := EntryEffect.follow (feedEntry f k) v s
  have held : ((follow (feedEntry f k) v s).1.entry (feedEntry f k)).config.action ≠ .failover := by
    rw [effect.config]; exact inert
  unfold setFeedCond setCond
  rw [handOver_inert held]
  exact effect.progs

/-- A slip has no FAILOVER action (R140), and so reaches no program. -/
theorem sampleReady_progs (law : EntryLaw s) : (sampleReady s).progs = s.progs := by
  have illegal (f : FeedId) : failoverLegal (feedEntry f .srcSlip) = false := by revert f; decide
  have entries := forEach_proj (f := fun f (t : State) => t.onPort f (Port.pass (Config.ticksPerSample - s.tick)))
    (π := State.entries) (fun _ _ => rfl) allFeeds s
  have before (f : FeedId) :
      ((passTicks (Config.ticksPerSample - s.tick) s).entry (feedEntry f .srcSlip)).config.action ≠ .failover := by
    have same : (passTicks (Config.ticksPerSample - s.tick) s).entries = s.entries := by
      unfold passTicks
      dsimp only
      generalize forEach allFeeds _ s = u at entries ⊢
      exact entries
    rw [State.entry_congr same]
    intro failover
    obtain ⟨-, -, -, -, -, -, -, legal⟩ := law (feedEntry f .srcSlip)
    exact absurd (legal failover) (by rw [illegal]; decide)
  have kept := forEach_induction (f := converterSample)
    (P := fun t => (∀ f, (t.entry (feedEntry f .srcSlip)).config.action ≠ .failover) ∧ t.progs = s.progs)
    (fun f t ⟨inert, same⟩ => ?_) allFeeds (passTicks (Config.ticksPerSample - s.tick) s) ⟨before, (passTicks_left _ s).1⟩
  · exact kept.2
  · have config (e : EntryId) : ((converterSample f t).entry e).config = (t.entry e).config :=
      (FeedEffect.keepConverter f _ t).config e
    refine ⟨fun g => by rw [config]; exact inert g, ?_⟩
    unfold converterSample keepConverter
    dsimp only
    split
    · exact (setFeedCond_progs (s := t.setFeed f _) (inert f) true).trans same
    · exact same

end

end Sys2Proof.Machine
end

section
/-! PROOFS. One output sample of every program: its record, its output slots and the samples its rings hold. -/
namespace Sys2Proof.Machine

/-! ## Output slots (R59) -/

theorem slotWord_low (x : Rat) : (slotWord x).extractLsb' 0 8 = 0 := by
  unfold slotWord
  exact BitVec.extractLsb'_append_eq_right

/-- A sample of 24 bits leaves exactly. -/
theorem slotWord_sample (x : Sample) : slotWord ((x.toInt : Rat) / 8388608) = x ++ (0 : BitVec 8) := by
  have scaled : (x.toInt : Rat) / 8388608 * 8388608 = x.toInt := by ring
  have low := BitVec.le_toInt x
  have high := BitVec.toInt_lt (x := x)
  have exact_ : outputSampleWord ((x.toInt : Rat) / 8388608) = x := by
    unfold outputSampleWord
    rw [scaled, if_pos ⟨Rat.den_intCast _, by rw [Rat.num_intCast]; omega, by rw [Rat.num_intCast]; omega⟩, Rat.num_intCast,
      BitVec.ofInt_toInt]
  rw [slotWord, exact_]

theorem outputFrame_get (c : Nat) (os : List Rat) (k : Fin 8) :
    (outputFrame c os)[k.val] = if k.val < c then slotWord (os.getD k.val 0) else 0 := by
  unfold outputFrame
  rw [Vector.getElem_ofFn]

theorem outputFrame_low (c : Nat) (os : List Rat) (k : Fin 8) : ((outputFrame c os)[k.val]).extractLsb' 0 8 = 0 := by
  rw [outputFrame_get]
  split
  · exact slotWord_low _
  · rfl

/-! ## One program in its turn -/

section
variable {frames : List (Rat × Rat)} {p q : ProgId} {u : State}

theorem programSample_prog (active : (u.prog p).active = true) : (programSample frames p u).prog p =
    ((u.prog p).sample frames (trims u (u.prog p)) u.store).1 := by
  unfold programSample
  rw [if_pos active]
  exact State.setProg_prog_self ..

theorem programSample_still (off : (u.prog p).active = false) : (programSample frames p u).prog p = u.prog p := by
  unfold programSample
  dsimp only
  rw [off]
  rfl

theorem programSample_port : (programSample frames p u).ports[p.val] =
    if (u.prog p).active then ((u.prog p).sample frames (trims u (u.prog p)) u.store).2.2 else zeroFrame := by
  unfold programSample
  dsimp only
  split <;> exact Vector.getElem_set_self ..

theorem programSample_port_ne (other : q ≠ p) : (programSample frames p u).ports[q.val] = u.ports[q.val] := by
  have place : p.val ≠ q.val := fun same => other (Fin.ext same.symm)
  unfold programSample
  dsimp only
  split <;> exact Vector.getElem_set_ne p.isLt q.isLt place

theorem served_port_of_notMem {l : List ProgId} (off : p ∉ l) : (served frames l u).ports[p.val] = u.ports[p.val] := by
  induction l generalizing u with
  | nil => rfl
  | cons q l ih =>
    obtain ⟨other, off⟩ := not_or.1 <| mt List.mem_cons.2 off
    exact (ih off).trans (programSample_port_ne other)

/-- What an output sample leaves of the unit besides the programs, the ports and the Delay Store. -/
theorem served_rest (l : List ProgId) :
    served frames l u = { u with
      progs := (served frames l u).progs, ports := (served frames l u).ports, store := (served frames l u).store } := by
  refine forEach_relation (R := fun a b => b = { a with progs := b.progs, ports := b.ports, store := b.store })
    (fun _ => rfl) (fun h g => by rw [g, h]) (fun p t => ?_) l u
  unfold programSample
  dsimp only
  split <;> rfl

/-- The turn of a program among all of them: it is served in a state that holds it and the feeds as they were, and the
programs after it leave its record, its port, and every address that none of them writes. -/
structure Turn (frames : List (Rat × Rat)) (p : ProgId) (u v t : State) : Prop where
  prog : v.prog p = u.prog p
  feeds : v.feeds = u.feeds
  wf : u.store.wf = true → v.store.wf = true
  record : t.prog p = (programSample frames p v).prog p
  port : t.ports[p.val] = (programSample frames p v).ports[p.val]
  read : ∀ a, (∀ q, q ≠ p → ¬(u.prog q).WritesAt a) → t.store.read a = (programSample frames p v).store.read a

theorem served_turn (frames : List (Rat × Rat)) (p : ProgId) (u : State) :
    ∃ v, Turn frames p u v (served frames allProgs u) := by
  obtain ⟨l₁, l₂, split⟩ := List.append_of_mem (List.mem_finRange p)
  have all : allProgs = l₁ ++ p :: l₂ := split
  have once : (l₁ ++ p :: l₂).Nodup := by rw [← all]; exact List.nodup_finRange 8
  obtain ⟨once₁, once, apart⟩ := List.nodup_append'.1 once
  obtain ⟨off₂, once₂⟩ := List.nodup_cons.1 once
  have off₁ : p ∉ l₁ := fun h => apart h List.mem_cons_self
  have turn : served frames allProgs u = served frames l₂ (programSample frames p (served frames l₁ u)) := by
    rw [all]; exact List.foldl_append
  refine ⟨served frames l₁ u, ?_⟩
  rw [turn]
  refine ⟨served_prog_of_notMem off₁, served_feeds l₁, served_wf l₁, served_prog_of_notMem off₂,
    served_port_of_notMem off₂, fun a none => served_read once₂ fun q hq => ?_⟩
  have other : q ≠ p := fun same => off₂ (same ▸ hq)
  have before : q ∉ l₁ := fun h => apart h (List.mem_cons_of_mem p hq)
  rw [programSample_prog_ne other, served_prog_of_notMem before]
  exact none q other

end

/-! ## Rings of different programs (R113, R114) -/

theorem PoolLaw.chains {s : State} (law : PoolLaw s) :
    (∀ p, (s.prog p).delay.chain.Nodup) ∧
      ∀ p q n, n ∈ (s.prog p).delay.chain → n ∈ (s.prog q).delay.chain → p = q := by
  have once : (allProgs.flatMap fun p => (s.prog p).delay.chain).Nodup :=
    (List.nodup_append'.1 (law.1.nodup_iff.2 List.nodup_range)).2.1
  obtain ⟨own, apart⟩ := List.nodup_flatMap.1 once
  have below (p q : ProgId) (order : p < q) : List.Disjoint (s.prog p).delay.chain (s.prog q).delay.chain := by
    have length : allProgs.length = 8 := List.length_finRange
    have place (r : ProgId) (h : r.val < allProgs.length) : allProgs[r.val] = r := List.getElem_finRange _
    have pair := List.pairwise_iff_getElem.1 apart p.val q.val (by rw [length]; exact p.isLt) (by rw [length]; exact q.isLt) order
    rw [place, place] at pair
    exact pair
  refine ⟨fun p => own p (List.mem_finRange p), fun p q n hp hq => ?_⟩
  obtain order | same | order := lt_trichotomy p q
  · exact absurd hq (below p q order hp)
  · exact same
  · exact absurd hp (below q p order hq)

/-- An address of a ring is on a page of the chain. -/
theorem DelayRec.address_page {d : DelayRec} {c k x : Nat} (pages : d.chain.length = c * d.reserve) (slot : k < c)
    (inside : x < d.ringSize) : d.address k x / 1024 ∈ d.chain := by
  have place := DelayRec.place_lt pages slot inside
  have floor (n y : Nat) : (n * 1024 + y % 1024) / 1024 = n := by omega
  have page : d.address k x / 1024 = d.chain[k * d.reserve + x / Config.pageSamples] := by
    unfold DelayRec.address
    rw [List.getD_eq_getElem _ _ place]
    exact floor _ x
  rw [page]
  exact List.getElem_mem _

/-- A slot reads only its own ring. -/
theorem DelayRec.readSlot_congr {d : DelayRec} {k trim : Nat} {m n : Memory} (some : 0 < d.ringSize)
    (same : ∀ x < d.ringSize, n.read (d.address k x) = m.read (d.address k x)) : d.readSlot n k trim = d.readSlot m k trim := by
  have ring (back : Nat) : d.ringRead n k back = d.ringRead m k back := by
    unfold DelayRec.ringRead
    rw [same _ (Nat.mod_lt _ some)]
  unfold DelayRec.readSlot
  simp only [ring]

/-- A program that runs or stops has a slot source for each slot (R47, R64). -/
theorem StackLaw.currentSet_length {s : State} (law : StackLaw s) {p : ProgId} (active : (s.prog p).active = true) :
    (s.prog p).currentSet.length = (s.prog p).slots := by
  obtain ⟨stack, sets⟩ := law p
  rw [if_pos active] at stack
  obtain ⟨some, -, defined⟩ := stack
  have top := List.getLast_mem some
  obtain ⟨l, hl⟩ := Option.isSome_iff_exists.1 (defined _ top)
  have current : (s.prog p).currentSet = l := by
    unfold Program.currentSet Program.currentRank
    rw [List.getLast?_eq_some_getLast some]
    dsimp only
    rw [hl]
    rfl
  rw [current]
  exact sets _ l hl

/-- No other program writes an address of a program's ring. -/
theorem ring_apart {s : State} (pool : PoolLaw s) (stack : StackLaw s) (delay : DelayLaw s) {p q : ProgId} (other : q ≠ p)
    {k x : Nat} (slot : k < (s.prog p).slots) (inside : x < (s.prog p).delay.ringSize) :
    ¬(s.prog q).WritesAt ((s.prog p).delay.address k x) := by
  rintro ⟨active, j, hj, same⟩
  obtain ⟨-, -, -, -, -, write, -, -⟩ := (delay q).1 active
  rw [stack.currentSet_length active] at hj
  have mine := DelayRec.address_page (pool.2 p).1 slot inside
  have theirs := DelayRec.address_page (pool.2 q).1 hj write
  rw [← same] at theirs
  exact other (pool.chains.2 q p _ theirs mine)

/-! ## The record of a program after an output sample (R52, R65, R69, R106, R107, R121, R123) -/

/-- What a slip reached beforehand is carried through an output sample. -/
theorem Readied.sample {g h : Program} (k : Readied g h) (frames : List (Rat × Rat)) (tr : List Nat) (m : Memory) :
    h.sample frames tr m = ({ (g.sample frames tr m).1 with
      swap := h.swap.fade, marks := h.marks, returnTimer := h.returnTimer, returnFell := h.returnFell },
      (g.sample frames tr m).2) := by
  have selected : selectSlots frames h = selectSlots frames g := by
    have current : h.currentSet = g.currentSet := by rw [k.rest]; rfl
    unfold selectSlots
    rw [current, k.level]
  have rest := k.rest
  unfold Program.sample
  rw [selected]
  dsimp only
  generalize selectSlots frames g = xs
  generalize h.swap = w at *
  generalize h.marks = w2 at *
  generalize h.returnTimer = w3 at *
  generalize h.returnFell = w4 at *
  subst rest
  rfl

theorem DelayRec.stepOn_progress (d : DelayRec) : d.stepOn.progress =
    if d.op = .slew then min (d.progress + 1) d.stepInterval.samples else d.progress := by
  unfold DelayRec.stepOn
  cases op : d.op <;> rfl

theorem Swap.fade_eq (w : Swap) : w.fade = { w with
    level := match w.phase with
      | .none => w.level
      | .fadeOut => w.level - 1
      | .fadeIn => min (w.level + 1) 480 } := by
  unfold Swap.fade
  cases phase : w.phase
  · dsimp only; rw [← phase]
  · rfl
  · rfl

theorem Program.fadedLevel_eq (g : Program) : g.fadedLevel = match g.delay.op, g.outDir with
    | .cutOut, _ => g.outLevel - 2
    | .cutIn, _ => min (g.outLevel + 2) 480
    | _, .none => g.outLevel
    | _, .fadeOut => g.outLevel - 1
    | _, .fadeIn => min (g.outLevel + 1) 480 := by
  unfold Program.fadedLevel
  cases g.delay.op <;> cases g.outDir <;> rfl

theorem Loudness.ramp_eq (l : Loudness) : l.ramp = { l with
    rampLeft := l.rampLeft - 1
    presentGain := if l.rampLeft = 0 then l.presentGain
      else l.presentGain + ((l.rampTarget : Rat) - l.presentGain) / (l.rampLeft : Rat) } := by
  unfold Loudness.ramp
  cases left : l.rampLeft with
  | zero => rw [Nat.zero_sub, if_pos rfl]; dsimp only; rw [← left]
  | succ n => rfl

theorem tap_accumulators (l : Loudness) (ys : List Rat) : (l.tap ys).accumulators =
    List.zipWith (fun a w => a + w ^ 2) l.accumulators (List.zipWith (fun mem y => (weighOne mem y).2) l.weighting ys) := by
  have weighed : List.zipWith (fun mem y => (weighOne mem y).2) l.weighting ys =
      (List.zipWith weighOne l.weighting ys).map (·.2) := (List.map_zipWith).symm
  rw [weighed, List.zipWith_map_right]
  simp only [sq]
  rfl

/-! ## The unit around its programs -/

theorem passTicks_clock (n : Nat) (s : State) :
    (passTicks n s).sampleInBlock = s.sampleInBlock ∧ (passTicks n s).monitor = s.monitor.pass n := by
  have ports := forEach_relation (R := Quiet) (f := fun f t => t.onPort f (Port.pass n)) .refl .trans
    (fun f t => .setFeed t f _) allFeeds s
  unfold passTicks
  dsimp only
  generalize forEach allFeeds _ s = t at ports ⊢
  exact ⟨ports.sampleInBlock, congrArg (Monitor.pass n) ports.monitor⟩

theorem sampleReady_clock (s : State) : (sampleReady s).sampleInBlock = s.sampleInBlock ∧
    (sampleReady s).monitor = s.monitor.pass (Config.ticksPerSample - s.tick) := by
  obtain ⟨samples, monitor⟩ := passTicks_clock (Config.ticksPerSample - s.tick) s
  have advanced := forEach_relation .refl .trans (fun f t => Quiet.converterSample f t) allFeeds
    (passTicks (Config.ticksPerSample - s.tick) s)
  unfold sampleReady
  exact ⟨advanced.sampleInBlock.trans samples, advanced.monitor.trans monitor⟩

/-- A program in its turn at an output sample: what a slip has reached of it before, what becomes of its record and its
port, and what is read where no other program writes. -/
structure Sampled (frames : List (Rat × Rat)) (s : State) (p : ProgId) (h : Program) (m : Memory) (t : State) : Prop where
  readied : Readied (s.prog p) h
  unslipped : EntryLaw s → h = s.prog p
  record : (s.prog p).active = true → t.prog p = { ((s.prog p).sample frames (trims s (s.prog p)) m).1 with
    swap := h.swap.fade, marks := h.marks, returnTimer := h.returnTimer, returnFell := h.returnFell }
  port : (s.prog p).active = true →
    t.ports[p.val] = ((s.prog p).sample frames (trims s (s.prog p)) m).2.2
  still : (s.prog p).active = false → t.prog p = s.prog p ∧ t.ports[p.val] = zeroFrame
  wf : s.store.wf = true → m.wf = true
  read : (s.prog p).active = true → ∀ a, (∀ q, q ≠ p → ¬(s.prog q).WritesAt a) →
    t.store.read a = ((s.prog p).delay.writeSlots 0 (selectSlots frames (s.prog p)) m).read a

theorem sampleReady_cls (s : State) (f : FeedId) : ((sampleReady s).feed f).conv.cls = (s.feed f).conv.cls := by
  have seen := view_sampleReady (s := s) f
  generalize sampleReady s = u at seen ⊢
  have conv : (u.feed f).conv = (s.feed f).conv.advance.1 := congrArg FeedView.conv seen
  rw [conv, Converter.advance_kept]

theorem Readied.currentSet {g h : Program} (k : Readied g h) : h.currentSet = g.currentSet := by
  rw [k.rest]; rfl

theorem Readied.delay {g h : Program} (k : Readied g h) : h.delay = g.delay := by
  rw [k.rest]

theorem Turn.sampled {frames : List (Rat × Rat)} {p : ProgId} {s u v t : State} (turn : Turn frames p u v t)
    (readied : Readied (s.prog p) (u.prog p)) (unslipped : EntryLaw s → u.progs = s.progs)
    (cls : ∀ f, (u.feed f).conv.cls = (s.feed f).conv.cls) (store : u.store = s.store)
    (writes : ∀ q a, (u.prog q).WritesAt a ↔ (s.prog q).WritesAt a) : Sampled frames s p (u.prog p) v.store t := by
  obtain ⟨prog, feeds, wf, record, port, read⟩ := turn
  have slotTrims : trims v (u.prog p) = trims s (s.prog p) := by
    have latency : latencies v (u.prog p) = latencies s (s.prog p) :=
      latencies_congr readied.currentSet fun x _ => by rw [State.feed_congr feeds, cls]
    unfold trims lsrcMax
    rw [latency]
  have selected : selectSlots frames (u.prog p) = selectSlots frames (s.prog p) := by
    unfold selectSlots
    rw [readied.currentSet, readied.level]
  have active := readied.active
  have taken := Readied.sample readied frames (trims s (s.prog p)) v.store
  rw [store] at wf
  refine ⟨readied, fun law => State.prog_congr (unslipped law) p, fun on => ?_, fun on => ?_, fun off => ?_, wf,
    fun on a apart => ?_⟩
  · rw [record, programSample_prog (by rw [prog, active, on]), prog, slotTrims, taken]
  · rw [port, programSample_port, if_pos (by rw [prog, active, on]), prog, slotTrims, taken]
  · have idle : (v.prog p).active = false := by rw [prog, active, off]
    rw [record, port, programSample_still idle, programSample_port, if_neg (by rw [idle]; decide), prog]
    exact ⟨readied.still off, rfl⟩
  · rw [read a fun q other w => apart q other ((writes q a).1 w), programSample_store,
      if_pos (by rw [prog, active, on]), prog, selected, readied.delay]

theorem sampled_outputSample (s : State) (p : ProgId) :
    ∃ h m, Sampled (sampleFrames s) s p h m (outputSample s) := by
  obtain ⟨v, turn⟩ := served_turn (sampleFrames s) p (sampleReady s)
  have sampled := turn.sampled (sampleReady_readied s p) sampleReady_progs (sampleReady_cls s) (sampleReady_store s)
    fun q a => (sampleReady_kept s q).writesAt a
  rw [outputSample_eq]
  generalize served (sampleFrames s) allProgs (sampleReady s) = t at sampled ⊢
  obtain ⟨readied, unslipped, record, port, still, wf, read⟩ := sampled
  exact ⟨_, _, readied, unslipped, record, port, still, wf, read⟩

/-- The unit around the programs at an output sample. -/
structure SampledUnit (s t : State) : Prop where
  tick : t.tick = 0
  samples : t.sampleInBlock = min (s.sampleInBlock + 1) 4800
  monitor : t.monitor = s.monitor.pass (512 - s.tick)
  view : ∀ f, view t f = ((view s f).passed (512 - s.tick)).advanced

theorem sampledUnit_outputSample (s : State) : SampledUnit s (outputSample s) := by
  obtain ⟨samples, monitor⟩ := sampleReady_clock s
  have views := view_sampleReady (s := s)
  have rest := served_rest (frames := sampleFrames s) (u := sampleReady s) allProgs
  rw [outputSample_eq]
  generalize served (sampleFrames s) allProgs (sampleReady s) = t at rest ⊢
  generalize sampleReady s = u at *
  rw [rest]
  refine ⟨rfl, ?_, monitor, views⟩
  change min (u.sampleInBlock + 1) 4800 = _
  rw [samples]

end Sys2Proof.Machine
end

section
/-! PROOFS. One output sample: what a program's record, its output slots and the Delay Store hold after it. -/
namespace Sys2Proof.Machine

section
variable {frames : List (Rat × Rat)} {s t : State} {p : ProgId} {h : Program} {m : Memory}

theorem Sampled.judgePins (sampled : Sampled frames s p h m t) : Sampled frames s p h m (judgePins t) := by
  obtain ⟨readied, unslipped, record, port, still, wf, read⟩ := sampled
  exact ⟨readied, unslipped, record, port, still, wf, read⟩

theorem SampledUnit.judgePins (sampled : SampledUnit s t) : SampledUnit s (judgePins t) := by
  obtain ⟨tick, samples, monitor, view⟩ := sampled
  exact ⟨tick, samples, monitor, view⟩

theorem sample_outputs (g : Program) (tr : List Nat) (k : Fin 8) (above : g.slots ≤ k.val) :
    (g.sample frames tr m).2.2[k.val] = 0 :=
  (outputFrame_get _ _ k).trans (if_neg (by omega))

/-- The delay record after an output sample. -/
theorem sample_delay (g : Program) (tr : List Nat) : (g.sample frames tr m).1.delay = { g.delay with
    flushCounter := min (g.delay.flushCounter + 1) g.delay.ringSize
    progress := if g.delay.op = .slew then min (g.delay.progress + 1) g.delay.stepInterval.samples else g.delay.progress
    writePos := if g.delay.writePos + 1 < g.delay.ringSize then g.delay.writePos + 1 else 0 } := by
  change g.delay.countWritten.stepOn.advance = _
  have progress := g.delay.countWritten.stepOn_progress
  rw [DelayRec.stepOn_eq, progress]
  rfl

/-- The record a slot is read with: written, and its SLEW step counted (R116, R117, R121). -/
def DelayRec.readyToRead (d e : DelayRec) : DelayRec := { d with flushCounter := e.flushCounter, progress := e.progress }

theorem sample_readyToRead (g : Program) (tr : List Nat) :
    g.delay.readyToRead (g.sample frames tr m).1.delay = g.delay.countWritten.stepOn := by
  have progress := g.delay.countWritten.stepOn_progress
  rw [sample_delay, DelayRec.stepOn_eq, progress]
  rfl

/-- The gain stage after an output sample: the tap, the ramp and the limiter in turn. -/
theorem sample_loud (g : Program) (tr : List Nat) {ys : List Rat}
    (tapped : ys = (List.range g.slots).map fun k => g.delay.countWritten.stepOn.readSlot
      (g.delay.writeSlots 0 (selectSlots frames g) m) k (tr.getD k 0)) :
    (g.sample frames tr m).1.loud = ((g.loud.tap ys).ramp.limit (ys.map (· * linear g.loud.presentGain))).1 ∧
      (g.sample frames tr m).2.2 = outputFrame g.slots
        (((g.loud.tap ys).ramp.limit (ys.map (· * linear g.loud.presentGain))).2.map
          (· * ((g.outLevel : Rat) / 480))) := by
  subst tapped
  exact ⟨rfl, rfl⟩

theorem limit_ramp_left (l : Loudness) (zs : List Rat) : ((l.ramp.limit zs).1.rampLeft = l.rampLeft - 1) ∧
    (l.ramp.limit zs).1.rampTarget = l.rampTarget ∧ (l.ramp.limit zs).1.presentGain = (if l.rampLeft = 0 then l.presentGain
      else l.presentGain + ((l.rampTarget : Rat) - l.presentGain) / (l.rampLeft : Rat)) ∧
    (l.ramp.limit zs).1.heldDown =
      if (l.ramp.limit zs).1.limiterGain < 1 then min (l.heldDown + 1) 4800 else l.heldDown := by
  rw [Loudness.ramp_eq]
  exact ⟨rfl, rfl, rfl, rfl⟩

theorem limit_ramp_accumulators (l : Loudness) (zs : List Rat) : (l.ramp.limit zs).1.accumulators = l.accumulators := by
  rw [Loudness.ramp_eq]; rfl

/-- The ramp and the limiter's count after an output sample (R106, R109). -/
theorem sample_ramp (g : Program) (tr : List Nat) : (g.sample frames tr m).1.loud.rampLeft = g.loud.rampLeft - 1 ∧
    (g.sample frames tr m).1.loud.rampTarget = g.loud.rampTarget ∧
    (g.sample frames tr m).1.loud.presentGain = (if g.loud.rampLeft = 0 then g.loud.presentGain
      else g.loud.presentGain + ((g.loud.rampTarget : Rat) - g.loud.presentGain) / (g.loud.rampLeft : Rat)) ∧
    (g.sample frames tr m).1.loud.heldDown = if (g.sample frames tr m).1.loud.limiterGain < 1 then
      min (g.loud.heldDown + 1) 4800 else g.loud.heldDown := by
  obtain ⟨loud, -⟩ := sample_loud (frames := frames) (m := m) g tr rfl
  rw [loud]
  exact limit_ramp_left (g.loud.tap _) _

/-- The samples slot selection hands to the rings (R56). -/
theorem selectSlots_get {g : Program} {k : Nat} {x : SlotSource} (slot : g.currentSet[k]? = some x) :
    (selectSlots frames g)[k]? =
      some (pickChan (frames.getD x.feed.val (0, 0)) x.chan * ((g.swap.level : Rat) / 480)) := by
  rw [selectSlots, List.getElem?_map, slot]
  rfl

theorem sampleFrames_get (s : State) (f : FeedId) :
    (sampleFrames s).getD f.val (0, 0) = ((sampleReady s).feed f).conv.delivered := by
  unfold sampleFrames
  generalize sampleReady s = u
  have place : f.val < allFeeds.length := lt_of_lt_of_eq f.isLt List.length_finRange.symm
  have feed : allFeeds[f.val] = f := List.getElem_finRange place
  rw [List.getD_eq_getElem _ _ (by rw [List.length_map]; exact place), List.getElem_map, feed]

/-- What the rings of a program hold after an output sample: the samples written, and for the reads what they held when
the program was served. -/
theorem Sampled.rings (sampled : Sampled frames s p h m t) (active : (s.prog p).active = true) (store : StoreLaw s)
    (pool : PoolLaw s) (stack : StackLaw s) (delay : DelayLaw s) :
    (∀ k x, (s.prog p).currentSet[k]? = some x →
      t.store.read ((s.prog p).delay.address k (s.prog p).delay.writePos) =
        pickChan (frames.getD x.feed.val (0, 0)) x.chan * (((s.prog p).swap.level : Rat) / 480)) ∧
    ∀ d : DelayRec, (∀ k x, d.address k x = (s.prog p).delay.address k x) → d.ringSize = (s.prog p).delay.ringSize →
      ∀ k < (s.prog p).slots, ∀ trim, d.readSlot t.store k trim =
        d.readSlot ((s.prog p).delay.writeSlots 0 (selectSlots frames (s.prog p)) m) k trim := by
  have wf := sampled.wf store
  have read := sampled.read active
  have length := stack.currentSet_length active
  obtain ⟨reserve, -, -, -, -, write, -, -⟩ := (delay p).1 active
  have once := pool.chains.1 p
  have pages := (pool.2 p).1
  have ours : ∀ k < (s.prog p).slots, ∀ x < (s.prog p).delay.ringSize, ∀ q, q ≠ p →
      ¬(s.prog q).WritesAt ((s.prog p).delay.address k x) :=
    fun k slot x inside q other => ring_apart pool stack delay other slot inside
  refine ⟨fun k x slot => ?_, fun d address size k slot trim => ?_⟩
  · have small : k < (s.prog p).slots := by
      rw [← length]; exact (List.getElem?_eq_some_iff.1 slot).1
    have total : (selectSlots frames (s.prog p)).length = (s.prog p).slots := by rw [selectSlots, List.length_map, length]
    have written := DelayRec.writeSlots_read wf (d := (s.prog p).delay) (k := 0)
      (by rw [total]; exact DelayRec.writeSlots_apart once pages write) k _ (selectSlots_get (frames := frames) slot)
    rw [Nat.zero_add] at written
    rw [read _ (ours k small _ write), written]
  · have some : 0 < (s.prog p).delay.ringSize := lt_of_le_of_lt (Nat.zero_le _) write
    refine DelayRec.readSlot_congr (by rw [size]; exact some) fun x inside => ?_
    rw [address, read _ (ours k slot x (by rw [← size]; exact inside))]

/-- What moves in the record of a program that runs or stops. -/
theorem Sampled.moved (sampled : Sampled frames s p h m t) (active : (s.prog p).active = true) :
    (t.prog p).delay = ((s.prog p).sample frames (trims s (s.prog p)) m).1.delay ∧
      (t.prog p).loud = ((s.prog p).sample frames (trims s (s.prog p)) m).1.loud ∧
      (t.prog p).state = (s.prog p).state ∧ (t.prog p).stack = (s.prog p).stack ∧
      (t.prog p).outLevel = (s.prog p).fadedLevel ∧ (t.prog p).swap = h.swap.fade := by
  rw [sampled.record active]
  exact ⟨rfl, rfl, rfl, rfl, rfl, rfl⟩

/-- What is heard of a program whose rings are its own. -/
theorem Sampled.heard (sampled : Sampled frames s p h m t) (active : (s.prog p).active = true) (store : StoreLaw s)
    (pool : PoolLaw s) (stack : StackLaw s) (delay : DelayLaw s) {ys : List Rat}
    (tapped : ys = (List.range (s.prog p).slots).map fun k =>
      ((s.prog p).delay.readyToRead (t.prog p).delay).readSlot t.store k ((trims s (s.prog p)).getD k 0)) :
    (t.prog p).loud = (((s.prog p).loud.tap ys).ramp.limit (ys.map (· * linear (s.prog p).loud.presentGain))).1 ∧
      t.ports[p.val] = outputFrame (s.prog p).slots
        ((((s.prog p).loud.tap ys).ramp.limit (ys.map (· * linear (s.prog p).loud.presentGain))).2.map
          (· * (((s.prog p).outLevel : Rat) / 480))) := by
  obtain ⟨record, loud, -, -, -, -⟩ := sampled.moved active
  have reads := (sampled.rings active store pool stack delay).2 (s.prog p).delay.countWritten.stepOn
    (by rw [DelayRec.stepOn_eq]; exact fun _ _ => rfl) (by rw [DelayRec.stepOn_eq]; rfl)
  rw [record, sample_readyToRead] at tapped
  rw [loud, sampled.port active]
  refine sample_loud _ _ (tapped.trans ?_)
  exact List.map_congr_left fun k slot => reads k (List.mem_range.1 slot) _

/-- Settles O31, by the unit around the programs and by each program in its turn. -/
theorem outputSampleMovesPrograms : Obligations.OutputSampleMovesPrograms := by
  refine ⟨slotWord_sample, fun s open_ => ?_⟩
  have run : exec .outputSample s = onUnit outputSample s := rfl
  rw [onUnit, open_] at run
  replace run : exec .outputSample s = .next (judgePins (outputSample s)) := run
  have counter := (judgePins_blockCounter (outputSample s)).trans (SampleKept.outputSample s).blockCounter
  obtain ⟨tick, samples, monitor, views⟩ := (sampledUnit_outputSample s).judgePins
  have all (p : ProgId) : ∃ h m, Sampled (sampleFrames s) s p h m (judgePins (outputSample s)) := by
    obtain ⟨h, m, sampled⟩ := sampled_outputSample s p
    exact ⟨h, m, sampled.judgePins⟩
  have delivered (f : FeedId) : (sampleFrames s).getD f.val (0, 0) = (s.feed f).conv.advance.1.delivered := by
    have seen := congrArg FeedView.conv (view_sampleReady (s := s) f)
    rw [sampleFrames_get]
    generalize sampleReady s = u at seen ⊢
    exact congrArg Converter.delivered seen
  generalize sampleFrames s = frames at *
  generalize judgePins (outputSample s) = t at *
  have port (f : FeedId) : (t.feed f).port = (s.feed f).port.pass (512 - s.tick) := congrArg FeedView.port (views f)
  have conv (f : FeedId) : (t.feed f).conv = (s.feed f).conv.advance.1 := congrArg FeedView.conv (views f)
  have slip (f : FeedId) : t.feedCond f .srcSlip = (s.feedCond f .srcSlip || (s.feed f).conv.advance.2) :=
    congrFun (congrArg FeedView.cond (views f)) .srcSlip
  have silent (f : FeedId) (off : (s.feed f).conv.state = .idle ∨ (s.feed f).conv.state = .search) :
      (t.feed f).conv.delivered = (0, 0) := by
    have state : (t.feed f).conv.state = (s.feed f).conv.state := by rw [conv, Converter.advance_kept]
    rw [← state] at off
    unfold Converter.delivered
    rcases off with off | off <;> rw [off]
  refine ⟨t, run, tick, samples, counter, congrArg Monitor.timer monitor, port,
    fun f => ⟨conv f, slip f, silent f⟩, fun p off => ?_, fun p active => ?_, fun p k => ?_⟩
  · obtain ⟨record, frame⟩ := (all p).choose_spec.choose_spec.still off
    refine ⟨record, fun k => ?_⟩
    change t.ports[p.val][k.val] = 0
    rw [frame]
    exact Vector.getElem_replicate ..
  · obtain ⟨h, m, sampled⟩ := all p
    obtain ⟨delay, loud, state, stack, level, swap⟩ := sampled.moved active
    have outputs : t.ports[p.val] = _ := sampled.port active
    have above := sample_outputs (frames := frames) (m := m) (s.prog p) (trims s (s.prog p))
    obtain ⟨left, target, present, held⟩ := sample_ramp (frames := frames) (m := m) (s.prog p) (trims s (s.prog p))
    have record := sample_delay (frames := frames) (m := m) (s.prog p) (trims s (s.prog p))
    rw [← loud] at left target present held
    rw [← delay] at record
    have size : (s.prog p).delay.ringSize = (s.prog p).delay.reserve * 1024 := rfl
    refine ⟨state, stack, fun law => ?_, ?_, fun inside => ?_, ?_, ?_, ?_, ?_, left, target, fun still => ?_, fun ramp => ?_,
      held, fun k high => ?_, fun store pool stack delay => ?_⟩
    · exact (swap.trans (congrArg (fun g => g.swap.fade) (sampled.unslipped law))).trans (Swap.fade_eq _)
    · rw [record]; rfl
    · rw [record]; exact DelayRec.advance_eq_mod inside
    · rw [record]
    · rw [record]
    · rw [record]
    · exact level.trans (Program.fadedLevel_eq _)
    · rw [present, if_pos still]
    · rw [present, if_neg ramp]
    · exact (congrArg (fun fr => fr[k.val]) outputs).trans (above k high)
    · obtain ⟨heard, frame⟩ := sampled.heard active store pool stack delay rfl
      have written := (sampled.rings active store pool stack delay).1
      refine ⟨fun k x slot => ?_, ?_, heard, fun k low => ?_⟩
      · rw [written k x slot, delivered, conv]
        cases x.chan <;> rfl
      · rw [heard, limit_ramp_accumulators]
        exact tap_accumulators _ _
      · have out := congrArg (fun fr => fr[k.val]) frame
        have times : (0 : Rat) * (((s.prog p).outLevel : Rat) / 480) = 0 := zero_mul _
        rw [outputFrame_get, if_pos low, ← times, List.getD_map] at out
        exact out
  · obtain ⟨h, m, sampled⟩ := all p
    have low : ∃ c os, t.ports[p.val] = outputFrame c os ∨ t.ports[p.val] = zeroFrame := by
      cases active : (s.prog p).active with
      | true => exact ⟨_, _, .inl (sampled.port active)⟩
      | false => exact ⟨0, [], .inr (sampled.still active).2⟩
    obtain ⟨c, os, frame | frame⟩ := low
    · exact (congrArg (fun fr => (fr[k.val]).extractLsb' 0 8) frame).trans (outputFrame_low c os k)
    · refine (congrArg (fun fr => (fr[k.val]).extractLsb' 0 8) frame).trans ?_
      have zero : zeroFrame[k.val] = 0 := Vector.getElem_replicate ..
      rw [zero]
      rfl

end

end Sys2Proof.Machine
end

section
/-! PROOFS. The SWITCH: the set it chooses, and what a change of the current set leaves of its program. -/
namespace Sys2Proof.Machine

section
variable {p : ProgId} {s : State}

/-! ## A change of the current set (R68) -/

/-- The record of a program put on a new stack for a cause. -/
def Program.switched (g : Program) (l : List Rank) (c : SwapCause) : Program :=
  { g with
    stack := l, swap := { g.swap with phase := .fadeIn, cause := some c }, returnTimer := 0, returnFell := false
    loud := { g.loud with window := if g.resetOnSwap then [] else g.loud.window } }

theorem Program.switched_eq (g : Program) (l : List Rank) (c : SwapCause) :
    ({ g with stack := l, swap := { g.swap with phase := .fadeIn, cause := some c } } : Program).zeroReturn.swapReset =
      g.switched l c := by
  unfold Program.swapReset Program.switched
  change (if g.resetOnSwap then _ else _) = _
  split
  · next h => simp [h, Program.zeroReturn]
  · next h => simp [h, Program.zeroReturn]

/-- Eligibility reads the sets, the marks and the feeds alone (R63). -/
theorem eligible_of_sets {s t : State} {g h : Program} (sets : h.sets = g.sets) (marks : h.marks = g.marks)
    (feeds : t.feeds = s.feeds) (r : Rank) : eligible t h r = eligible s g r := by
  unfold eligible Program.markAt
  rw [rankHealthy_of_sets sets feeds, marks]

/-- What follows a delay follows it from a record that agrees on the delay and the state. -/
theorem DelayFollows.from {bound : Int} {g g' h : Program} (state : g'.state = g.state) (delay : g'.delay = g.delay)
    (outDir : g'.outDir = g.outDir) (follows : DelayFollows bound g' h) : DelayFollows bound g h := by
  unfold DelayFollows at follows ⊢
  rwa [state, delay, outDir] at follows

/-- Two states agree on what a change of the current set reports against: the record but for its marks and its return
timer, the notices that wait, and the block counter. -/
structure Selecting (p : ProgId) (s u : State) : Prop where
  record : ∃ m n fell, u.prog p = { s.prog p with marks := m, returnTimer := n, returnFell := fell }
  others : OtherProgsKept p s u
  feeds : u.feeds = s.feeds
  store : u.store = s.store
  grows : Grows s u
  counter : u.blockCounter = s.blockCounter

theorem Selecting.refl (p : ProgId) (s : State) : Selecting p s s :=
  ⟨⟨_, _, _, rfl⟩, fun _ _ => rfl, rfl, rfl, .refl s, rfl⟩

/-- The state of a SWITCH that changes the current set, before its notice. -/
def setMoved (p : ProgId) (l : List Rank) (c : SwapCause) (u : State) : State :=
  judgeNoSource p (judgeOnBackup p (recomputeDelay p (u.setProg p ((u.prog p).switched l c))))

theorem changeSet_eq (p : ProgId) (l : List Rank) (c : SwapCause) (u : State) :
    changeSet p l c u = sourceChanged p (u.prog p).swap.origin l.getLast? (some c) (setMoved p l c u) := by
  unfold changeSet setMoved
  simp only [State.onProg, Program.switched_eq]

end

section
variable {p : ProgId} {u : State} {l : List Rank} {c : SwapCause} {r : Rank}

/-- A change of the current set, in its parts. -/
structure Changed (p : ProgId) (l : List Rank) (c : SwapCause) (u t : State) : Prop where
  redirected : ((u.prog p).switched l c).SameButDelay (t.prog p)
  dtgt : (t.prog p).delay.dtgt = delayTargetOf t (t.prog p)
  follows : DelayFollows (ringBound t (t.prog p)) (u.prog p) (t.prog p)
  noSource : NoSourceAt t p
  backup : BackupAt t p
  effect : ProgEffect p u t
  grows : Grows u t

theorem setMoved_changed (active : (u.prog p).active = true) : Changed p l c u (setMoved p l c u) := by
  have before : (u.setProg p ((u.prog p).switched l c)).prog p = (u.prog p).switched l c := State.setProg_prog_self ..
  have on : ((u.setProg p ((u.prog p).switched l c)).prog p).active = true := by rw [before]; exact active
  have put : ProgEffect p u (u.setProg p ((u.prog p).switched l c)) := .setProg p u _
  have steps := ((AlarmSteps.refl (s := u)).setProg p ((u.prog p).switched l c)).recomputeDelay p
  unfold setMoved
  generalize u.setProg p ((u.prog p).switched l c) = v at *
  have redirected := Program.SameButDelay.recomputeDelay p p v
  obtain ⟨dtgt, follows⟩ := recomputeDelay_aimed on
  have effect := put.trans (.recomputeDelay p v)
  generalize recomputeDelay p v = w at *
  have judged := ProgEffect.judgeOnBackup p w
  have backup := judgeOnBackup_backupAt p w
  have same : (judgeOnBackup p w).prog p = w.prog p := setProgCond_prog (by decide) ..
  have steps := steps.judgeOnBackup p
  generalize judgeOnBackup p w = x at *
  have noSource := judgeNoSource_noSourceAt p x
  have backup := judgeNoSource_backupAt backup
  have last : (judgeNoSource p x).prog p = x.prog p := judgeNoSource_prog ..
  have grows := (steps.judgeNoSource p).grows
  have effect := effect.trans (judged.trans (.judgeNoSource p x))
  have aligned : Aligned p w (judgeNoSource p x) :=
    .ofProg (last.trans same) ((judgeNoSource_feeds p x).trans judged.feeds)
  generalize judgeNoSource p x = t at *
  rw [before] at redirected follows
  rw [← same, ← last] at redirected
  refine ⟨redirected, ?_, ?_, noSource, backup, effect, grows⟩
  · rw [aligned.delay, aligned.equation.target, dtgt]
  · rw [aligned.equation.bound]
    have here : DelayFollows (ringBound w (w.prog p)) (u.prog p) (w.prog p) := follows.from rfl rfl rfl
    unfold DelayFollows at here ⊢
    rw [aligned.delay, aligned.outDir]
    exact here

/-- A notice leaves what a change of the current set is in its parts. -/
theorem Changed.pushNotice {t : State} (h : Changed p l c u t) (k : NoticeKind) (src : Source) (d : List Byte) :
    Changed p l c u (pushNotice k src d t) := by
  obtain ⟨redirected, dtgt, follows, noSource, backup, effect, grows⟩ := h
  have after : ProgEffect p t (Machine.pushNotice k src d t) := .pushNotice ..
  have more : Grows t (Machine.pushNotice k src d t) := (AlarmSteps.refl.pushNotice ..).grows
  have aligned : Aligned p t (Machine.pushNotice k src d t) := .ofAlarm (.pushNotice ..)
  have same := SourcesSame.pushNotice k src d (.refl t)
  have prog : (Machine.pushNotice k src d t).prog p = t.prog p := pushNotice_prog ..
  generalize Machine.pushNotice k src d t = v at *
  refine ⟨by rw [prog]; exact redirected, ?_, ?_, same.noSourceAt noSource, same.backupAt backup, effect.trans after,
    grows.trans more⟩
  · rw [aligned.delay, aligned.equation.target, dtgt]
  · rw [aligned.equation.bound, prog]; exact follows

theorem changeSet_changed (active : (u.prog p).active = true) : Changed p l c u (changeSet p l c u) := by
  rw [changeSet_eq]
  exact (setMoved_changed active).pushNotice ..

/-- A change of the current set is reported (R68). -/
theorem changeSet_reported (active : (u.prog p).active = true) (top : l.getLast? = some r) :
    Reported .sourceChanged (.program p)
      (rankByte (u.prog p).swap.origin ++ [BitVec.ofNat 8 r.val, BitVec.ofNat 8 (causeCode (some c))]) u
      (changeSet p l c u) := by
  have moved := setMoved_changed (l := l) (c := c) active
  have bytes : rankByte (u.prog p).swap.origin ++ [BitVec.ofNat 8 r.val, BitVec.ofNat 8 (causeCode (some c))] =
      rankByte (u.prog p).swap.origin ++ rankByte l.getLast? ++ byte1 (causeCode (some c)) := by
    rw [top, List.append_assoc]; rfl
  rw [changeSet_eq, bytes]
  exact .of moved.grows moved.effect.quiet.blockCounter (.refl _)

/-- A change of the current set to an eligible rank: the set and its report (R68), and what else the record holds. -/
theorem changeSet_setChanged {s : State} (here : Selecting p s u) (active : (s.prog p).active = true)
    (top : l.getLast? = some r) (fit : eligible u (u.prog p) r = true) :
    SetChanged p r c s (changeSet p l c u) ∧
      ((changeSet p l c u).prog p).stack = l ∧
      ((changeSet p l c u).prog p).swap = { (s.prog p).swap with phase := .fadeIn, cause := some c } ∧
      ((changeSet p l c u).prog p).state = (s.prog p).state ∧
      ((changeSet p l c u).prog p).marks = (u.prog p).marks := by
  obtain ⟨⟨m, n, fell, record⟩, others, feeds, store, grows, counter⟩ := here
  have on : (u.prog p).active = true := by rw [record]; exact active
  have reported := Reported.congr grows counter (changeSet_reported (c := c) on top) (.refl _)
  obtain ⟨redirected, dtgt, follows, noSource, backup, effect, -⟩ := changeSet_changed (l := l) (c := c) on
  generalize changeSet p l c u = t at *
  have rank : (t.prog p).currentRank = some r := by rw [redirected]; exact top
  have active' : (t.prog p).active = true := by rw [redirected]; exact on
  have fit' : eligible t (t.prog p) r = true := by
    rw [eligible_of_sets (g := u.prog p) (by rw [redirected]; rfl) (by rw [redirected]; rfl) effect.feeds, fit]
  have follows' : DelayFollows (ringBound t (t.prog p)) (s.prog p) (t.prog p) :=
    follows.from (by rw [record]) (by rw [record]) (by rw [record])
  refine ⟨⟨rank, ?_, ?_, dtgt, follows', ?_, ?_, ?_, ?_⟩, ?_, ?_, ?_, ?_⟩
  · rw [redirected]; rfl
  · rw [redirected]; rfl
  · rw [redirected, record]; rfl
  · have current : currentEligible t (t.prog p) = true := by rw [currentEligible, rank]; exact fit'
    rw [noSource, noSourceTest, current, Bool.not_true, Bool.and_false, Bool.false_and]
  · rw [backup, Program.backup, active', rank, Bool.true_and, bne_iff_ne]
  · rw [record] at reported; exact reported
  · rw [redirected]; rfl
  · rw [redirected, record]; rfl
  · rw [redirected, record]; rfl
  · rw [redirected]; rfl

/-! ## The set that stays (R66, R69) -/

theorem follow_idle {e : EntryId} {v : Bool} {s : State} (same : s.cond e = v) : (follow e v s).1 = s := by
  unfold follow
  rw [if_pos same]

/-- NO_SOURCE judged again as it stands is no change. -/
theorem judgeNoSource_idle {s : State} (law : NoSourceAt s p) : judgeNoSource p s = s := follow_idle law

theorem keepSet_prog (p : ProgId) (c : SwapCause) (u : State) : (keepSet p c u).prog p =
    { u.prog p with swap := { (u.prog p).swap with phase := .fadeIn, cause := some c } } := by
  unfold keepSet
  rw [judgeNoSource_prog, State.onProg, State.setProg_prog_self]

theorem keepSet_noSource (p : ProgId) (c : SwapCause) (u : State) :
    (keepSet p c u).progCond p .noSource = noSourceTest u (u.prog p) := by
  have at_ : NoSourceAt (keepSet p c u) p := judgeNoSource_noSourceAt ..
  have feeds : (keepSet p c u).feeds = u.feeds := judgeNoSource_feeds ..
  rw [at_, keepSet_prog]
  exact noSourceTest_same (fun f => by rw [State.feed_congr feeds]) ⟨rfl, rfl, rfl, rfl⟩

theorem keepSet_effect (p : ProgId) (c : SwapCause) (u : State) : ProgEffect p u (keepSet p c u) :=
  (ProgEffect.onProg p u _).trans (.judgeNoSource p _)

theorem keepSet_notices {s : State} (law : NoSourceAt s p) (c : SwapCause) :
    (keepSet p c s).notices = s.notices ∧ (keepSet p c s).missed = s.missed := by
  have put : NoSourceAt (s.onProg p fun g => { g with swap := { g.swap with phase := .fadeIn, cause := some c } }) p :=
    ((SourcesSame.refl s).onProg (g := fun g => { g with swap := { g.swap with phase := .fadeIn, cause := some c } })
      (fun _ => ⟨rfl, rfl, rfl, rfl⟩) p).noSourceAt law
  unfold keepSet
  rw [judgeNoSource_idle put]
  exact ⟨rfl, rfl⟩

/-! ## The failover choice (R66) -/

/-- A SWITCH falls back in a state that agrees with the one before it on every rank's eligibility, with NO_SOURCE and the
notices as they stood. -/
structure Fallen (p : ProgId) (s u : State) : Prop extends Selecting p s u where
  ranked : ∀ r, eligible u (u.prog p) r = eligible s (s.prog p) r
  quiet : NoSourceAt s p → NoSourceAt u p ∧ u.notices = s.notices ∧ u.missed = s.missed

theorem Fallen.refl (p : ProgId) (s : State) : Fallen p s s := ⟨.refl p s, fun _ => rfl, fun law => ⟨law, rfl, rfl⟩⟩

theorem reachRank_new {stack : List Rank} (off : r ∉ stack) : reachRank r stack = stack ++ [r] := by
  have whole : stack.takeWhile (· != r) = stack :=
    List.takeWhile_eq_self_iff.2 fun x hx => bne_iff_ne.2 fun same => off (by rw [← same]; exact hx)
  rw [reachRank, whole]

theorem reachRank_old {stack : List Rank} (on : r ∈ stack) : ∃ above, reachRank r stack ++ above = stack := by
  induction stack with
  | nil => exact absurd on List.not_mem_nil
  | cons x stack ih =>
    by_cases same : x = r
    · exact ⟨stack, by simp [reachRank, same]⟩
    · obtain ⟨above, rest⟩ := ih ((List.mem_cons.1 on).resolve_left fun h => same h.symm)
      refine ⟨above, ?_⟩
      simpa [reachRank, same] using rest

/-- What the failover choice leaves, whatever set it falls on. -/
structure Chosen (p : ProgId) (c : SwapCause) (s u t : State) : Prop where
  swap : (t.prog p).swap = { (s.prog p).swap with phase := .fadeIn, cause := some c }
  state : (t.prog p).state = (s.prog p).state
  marks : (t.prog p).marks = (u.prog p).marks
  others : OtherProgsKept p s t
  feeds : t.feeds = s.feeds
  store : t.store = s.store

theorem Selecting.chosen {s t : State} (here : Selecting p s u) (effect : ProgEffect p u t)
    (swap : (t.prog p).swap = { (s.prog p).swap with phase := .fadeIn, cause := some c })
    (state : (t.prog p).state = (s.prog p).state) (marks : (t.prog p).marks = (u.prog p).marks) : Chosen p c s u t :=
  ⟨swap, state, marks, fun q other => (effect.prog q other).trans (here.others q other), effect.feeds.trans here.feeds,
    effect.quiet.store.trans here.store⟩

/-- The set stays: no notice comes where NO_SOURCE stood as its law says. -/
theorem keepSet_chosen {s : State} (here : Fallen p s u) (active : (s.prog p).active = true)
    (stays : currentEligible s (s.prog p) = true ∨ ∀ r, eligible s (s.prog p) r = false) :
    Chosen p c s u (keepSet p c u) ∧ ((keepSet p c u).prog p).stack = (s.prog p).stack ∧
      ((keepSet p c u).prog p).delay = (s.prog p).delay ∧
      ((keepSet p c u).progCond p .noSource = true ↔ currentEligible s (s.prog p) = false) ∧
      (NoSourceAt s p → (keepSet p c u).notices = s.notices ∧ (keepSet p c u).missed = s.missed) := by
  obtain ⟨selecting, ranked, quiet⟩ := here
  have record := keepSet_prog p c u
  have noSource := keepSet_noSource p c u
  have effect := keepSet_effect p c u
  have still (law : NoSourceAt u p) := keepSet_notices law c
  generalize keepSet p c u = t at *
  obtain ⟨m, n, fell, before⟩ := selecting.record
  rw [before] at record
  have rank : (u.prog p).currentRank = (s.prog p).currentRank := by rw [before]; rfl
  have current : currentEligible u (u.prog p) = currentEligible s (s.prog p) := by
    unfold currentEligible
    rw [rank]
    cases (s.prog p).currentRank with
    | none => rfl
    | some r => exact ranked r
  refine ⟨selecting.chosen effect (by rw [record]) (by rw [record]) (by rw [record, before]), by rw [record],
    by rw [record], ?_, fun law => ?_⟩
  · rw [noSource, noSourceTest_iff (by rw [before]; exact active), current]
    simp only [ranked]
    refine and_iff_left_of_imp fun off => ?_
    obtain on | none := stays
    · exact absurd off (by rw [on]; decide)
    · exact none
  · obtain ⟨law, notices, missed⟩ := quiet law
    obtain ⟨same, lost⟩ := still law
    exact ⟨same.trans notices, lost.trans missed⟩

/-- The failover choice keeps the current set where it is eligible, or no set is. -/
theorem failoverSwitch_keeps {s : State} (here : Fallen p s u)
    (stays : currentEligible s (s.prog p) = true ∨ ∀ r, eligible s (s.prog p) r = false) :
    failoverSwitch p c u = keepSet p c u := by
  obtain ⟨m, n, fell, before⟩ := here.record
  have rank : (u.prog p).currentRank = (s.prog p).currentRank := by rw [before]; rfl
  unfold failoverSwitch
  dsimp only
  split
  · rfl
  · next off =>
    obtain on | nowhere := stays
    · refine absurd ?_ off
      rw [← on]
      unfold currentEligible
      rw [rank]
      cases (s.prog p).currentRank with
      | none => rfl
      | some r => exact here.ranked r
    · have absent : lowestEligible u (u.prog p) = none :=
        Option.isNone_iff_eq_none.1 ((lowestEligible_isNone ..).2 fun r => by rw [here.ranked, nowhere])
      rw [absent]

/-- The failover choice goes to the lowest eligible rank where the current set is not eligible. -/
theorem failoverSwitch_moves {s : State} (here : Fallen p s u) (off : currentEligible s (s.prog p) = false)
    (fit : eligible s (s.prog p) r = true) (below : ∀ r' < r, eligible s (s.prog p) r' = false) :
    failoverSwitch p c u = changeSet p (reachRank r (s.prog p).stack) c u := by
  obtain ⟨m, n, fell, before⟩ := here.record
  have rank : (u.prog p).currentRank = (s.prog p).currentRank := by rw [before]; rfl
  have stack : (u.prog p).stack = (s.prog p).stack := by rw [before]
  have current : currentEligible u (u.prog p) = false := by
    rw [← off]
    unfold currentEligible
    rw [rank]
    cases (s.prog p).currentRank with
    | none => rfl
    | some r => exact here.ranked r
  have lowest : lowestEligible u (u.prog p) = some r := by
    cases found : lowestEligible u (u.prog p) with
    | none =>
      have none := (lowestEligible_isNone ..).1 (Option.isNone_iff_eq_none.2 found) r
      rw [here.ranked, fit] at none
      exact absurd none (by decide)
    | some d =>
      obtain ⟨hd, least⟩ := find_allRanks found
      rw [here.ranked] at hd
      obtain lower | same | higher := lt_trichotomy d r
      · exact absurd hd (by rw [below d lower]; decide)
      · rw [same]
      · have none := least r higher
        rw [here.ranked, fit] at none
        exact absurd none (by decide)
  unfold failoverSwitch
  dsimp only
  rw [current, if_neg (by decide), lowest]
  dsimp only
  rw [stack]

theorem failoverSwitch_kept {s : State} (here : Fallen p s u) (active : (s.prog p).active = true)
    (stays : currentEligible s (s.prog p) = true ∨ ∀ r, eligible s (s.prog p) r = false) :
    ((failoverSwitch p c u).prog p).stack = (s.prog p).stack ∧
      ((failoverSwitch p c u).prog p).delay = (s.prog p).delay ∧
      ((failoverSwitch p c u).progCond p .noSource = true ↔ currentEligible s (s.prog p) = false) ∧
      (NoSourceAt s p → (failoverSwitch p c u).notices = s.notices ∧ (failoverSwitch p c u).missed = s.missed) := by
  rw [failoverSwitch_keeps here stays]
  exact (keepSet_chosen here active stays).2

theorem Fallen.active {s : State} (here : Fallen p s u) (active : (s.prog p).active = true) : (u.prog p).active = true := by
  obtain ⟨m, n, fell, record⟩ := here.record
  rw [record]; exact active

/-- The failover choice moves to a rank: it is on top of the stack, cut back to it or with it pushed. -/
theorem failoverSwitch_moved {s : State} (here : Fallen p s u) (active : (s.prog p).active = true)
    (off : currentEligible s (s.prog p) = false) (fit : eligible s (s.prog p) r = true)
    (below : ∀ r' < r, eligible s (s.prog p) r' = false) :
    SetChanged p r c s (failoverSwitch p c u) ∧
      (r ∉ (s.prog p).stack → ((failoverSwitch p c u).prog p).stack = (s.prog p).stack ++ [r]) ∧
      (r ∈ (s.prog p).stack → ∃ above, ((failoverSwitch p c u).prog p).stack ++ above = (s.prog p).stack) := by
  have top : (reachRank r (s.prog p).stack).getLast? = some r := List.getLast?_concat
  obtain ⟨changed, stack, -, -, -⟩ :=
    changeSet_setChanged (c := c) here.toSelecting active top (by rw [here.ranked]; exact fit)
  rw [failoverSwitch_moves here off fit below]
  generalize changeSet p (reachRank r (s.prog p).stack) c u = t at *
  rw [stack]
  exact ⟨changed, reachRank_new, reachRank_old⟩

theorem failoverSwitch_chosen {s : State} (here : Fallen p s u) (active : (s.prog p).active = true) :
    Chosen p c s u (failoverSwitch p c u) := by
  by_cases stays : currentEligible s (s.prog p) = true ∨ ∀ r, eligible s (s.prog p) r = false
  · rw [failoverSwitch_keeps here stays]
    exact (keepSet_chosen here active stays).1
  · obtain ⟨off, eligible_⟩ := not_or.1 stays
    have off : currentEligible s (s.prog p) = false := Bool.eq_false_iff.2 off
    cases found : lowestEligible s (s.prog p) with
    | none => exact absurd ((lowestEligible_isNone ..).1 (Option.isNone_iff_eq_none.2 found)) eligible_
    | some r =>
      obtain ⟨fit, below⟩ := find_allRanks found
      have top : (reachRank r (s.prog p).stack).getLast? = some r := List.getLast?_concat
      have effect := (changeSet_changed (l := reachRank r (s.prog p).stack) (c := c) (here.active active)).effect
      obtain ⟨-, -, swap, state, marks⟩ :=
        changeSet_setChanged (c := c) here.toSelecting active top (by rw [here.ranked]; exact fit)
      rw [failoverSwitch_moves here off fit below]
      exact here.toSelecting.chosen effect swap state marks

/-! ## The selected rank's mark (R67, R72) -/

theorem Program.withMark_markAt_ne (g : Program) {r' : Rank} (other : r' ≠ r) (v : Bool) :
    (g.withMark r v).markAt r' = g.markAt r' :=
  Vector.getElem_set_ne r.isLt r'.isLt fun same => other (Fin.ext same.symm)

/-- A mark changed while a swap fades out leaves the swap as it is. -/
theorem setMark_selecting {s : State} (active : (s.prog p).active = true) (fading : (s.prog p).swap.phase = .fadeOut)
    (v : Bool) : Selecting p s (setMark p r v s) ∧ ((setMark p r v s).prog p).marks = ((s.prog p).withMark r v).marks := by
  have before : (s.setProg p ((s.prog p).withMark r v)).prog p = (s.prog p).withMark r v := State.setProg_prog_self ..
  have on : ((s.setProg p ((s.prog p).withMark r v)).prog p).active = true := by rw [before]; exact active
  have record := eligibilityEvent_prog on
  have effect := (ProgEffect.setProg p s ((s.prog p).withMark r v)).trans (.eligibilityEvent p _)
  have grows := (((AlarmSteps.refl (s := s)).setProg p ((s.prog p).withMark r v)).eligibilityEvent p).grows
  have same : setMark p r v s = eligibilityEvent p (s.setProg p ((s.prog p).withMark r v)) := rfl
  rw [before] at record
  generalize s.setProg p ((s.prog p).withMark r v) = u at *
  have swap : (((s.prog p).withMark r v).eventful u (u.progCond p .noSource)).swap = (s.prog p).swap := by
    rw [eventful_swap]
    unfold failoverSwap
    rw [show ((s.prog p).withMark r v).swap = (s.prog p).swap from rfl, if_pos fading, ite_self]
  obtain ⟨w, n, fell, eventful⟩ := eventful_eq ((s.prog p).withMark r v) u (u.progCond p .noSource)
  rw [eventful] at record swap
  obtain rfl : w = (s.prog p).swap := swap
  rw [same]
  generalize eligibilityEvent p u = t at *
  exact ⟨⟨⟨_, n, fell, record⟩, effect.prog, effect.feeds, effect.quiet.store, grows, effect.quiet.blockCounter⟩,
    by rw [record]⟩

theorem eligibilityEvent_notices {s : State} (law : NoSourceAt s p) :
    (eligibilityEvent p s).notices = s.notices ∧ (eligibilityEvent p s).missed = s.missed := by
  unfold eligibilityEvent
  split
  · rw [judgeNoSource_idle law]
    unfold noSourceRelease judgeReturnSet
    dsimp only
    split <;> split <;> exact ⟨rfl, rfl⟩
  · exact ⟨rfl, rfl⟩

/-- The mark of an unhealthy rank, cleared while a swap fades out, makes no rank eligible. -/
theorem setMark_fallen {s : State} (active : (s.prog p).active = true) (fading : (s.prog p).swap.phase = .fadeOut)
    (ill : rankHealthy s (s.prog p) r = false) : Fallen p s (setMark p r false s) := by
  have before : (s.setProg p ((s.prog p).withMark r false)).prog p = (s.prog p).withMark r false := State.setProg_prog_self ..
  have ranked (r' : Rank) : eligible s ((s.prog p).withMark r false) r' = eligible s (s.prog p) r' := by
    have healthy : rankHealthy s ((s.prog p).withMark r false) r' = rankHealthy s (s.prog p) r' :=
      rankHealthy_of_sets rfl rfl r'
    unfold eligible
    rw [healthy]
    by_cases same : r' = r
    · rw [same, ill, Bool.false_and, Bool.false_and]
    · rw [(s.prog p).withMark_markAt_ne same]
  obtain ⟨selecting, marks⟩ := setMark_selecting (r := r) active fading false
  have same : setMark p r false s = eligibilityEvent p (s.setProg p ((s.prog p).withMark r false)) := rfl
  refine ⟨selecting, fun r' => ?_, fun law => ?_⟩
  · obtain ⟨m, n, fell, record⟩ := selecting.record
    rw [← ranked r']
    exact eligible_of_sets (by rw [record]; rfl) marks selecting.feeds r'
  · have on : ((s.setProg p ((s.prog p).withMark r false)).prog p).active = true := by rw [before]; exact active
    have put : NoSourceAt (s.setProg p ((s.prog p).withMark r false)) p := by
      have current : currentEligible s ((s.prog p).withMark r false) = currentEligible s (s.prog p) := by
        unfold currentEligible
        rw [show ((s.prog p).withMark r false).currentRank = (s.prog p).currentRank from rfl]
        cases (s.prog p).currentRank with
        | none => rfl
        | some r' => exact ranked r'
      have lowest : lowestEligible s ((s.prog p).withMark r false) = lowestEligible s (s.prog p) := by
        unfold lowestEligible
        rw [funext ranked]
      unfold NoSourceAt at law ⊢
      rw [before]
      change s.progCond p .noSource = noSourceTest s ((s.prog p).withMark r false)
      rw [law, noSourceTest, noSourceTest, current, lowest]
      rfl
    obtain ⟨notices, missed⟩ := eligibilityEvent_notices put
    have kept := (eligibilityEvent_same on).noSourceAt (judgeNoSource_noSourceAt p _)
    rw [same]
    generalize eligibilityEvent p (s.setProg p ((s.prog p).withMark r false)) = t at *
    exact ⟨kept, notices, missed⟩

/-! ## The SWITCH by the swap's cause (R66, R67) -/

/-- A SWITCH falls back to the failover choice (R66, R67). -/
def FallsBack (s : State) (p : ProgId) : Prop :=
  (s.prog p).swap.cause = some .return ∧ returnEligible s (s.prog p) = false ∨
    (s.prog p).swap.cause = some .select ∧
      ∃ r, (s.prog p).swap.selected = some r ∧ rankHealthy s (s.prog p) r = false

/-- The SWITCH of a failover swap, and of a swap that falls back, is the failover choice. -/
theorem swapSwitch_falls {s : State} (active : (s.prog p).active = true) (fading : (s.prog p).swap.phase = .fadeOut)
    (why : (s.prog p).swap.cause = some .failover ∨ (s.prog p).swap.cause = some .silence ∨ FallsBack s p) :
    ∃ u, Fallen p s u ∧
      swapSwitch p s =
        failoverSwitch p (if (s.prog p).swap.cause = some .silence then .silence else .failover) u ∧
      ∀ r, (s.prog p).swap.cause = some .select → (s.prog p).swap.selected = some r → (u.prog p).markAt r = false := by
  obtain cause | cause | ⟨cause, off⟩ | ⟨cause, r, selected, ill⟩ := why
  · refine ⟨s, .refl p s, ?_, fun r select => absurd (cause.symm.trans select) (by decide)⟩
    unfold swapSwitch
    rw [cause]
    rfl
  · refine ⟨s, .refl p s, ?_, fun r select => absurd (cause.symm.trans select) (by decide)⟩
    unfold swapSwitch
    rw [cause]
    rfl
  · refine ⟨s, .refl p s, ?_, fun r select => absurd (cause.symm.trans select) (by decide)⟩
    unfold swapSwitch returnSwitch
    rw [cause]
    dsimp only
    rw [off]
    rfl
  · obtain ⟨-, marks⟩ := setMark_selecting (r := r) active fading false
    have fallen := setMark_fallen active fading ill
    have clear : ((setMark p r false s).prog p).markAt r = false := by
      unfold Program.markAt; rw [marks]; exact Vector.getElem_set_self ..
    have ill' : eligible (setMark p r false s) ((setMark p r false s).prog p) r = false := by
      rw [fallen.ranked, eligible, ill, Bool.false_and]
    refine ⟨setMark p r false s, fallen, ?_, fun d _ same => ?_⟩
    · unfold swapSwitch
      rw [cause, selected]
      unfold selectSwitch
      dsimp only
      rw [ill']
      rfl
    · rw [selected] at same
      rw [← Option.some.inj same]
      exact clear

/-- The SWITCH of a select swap whose selected set is healthy. -/
theorem swapSwitch_selects {s : State} (active : (s.prog p).active = true) (fading : (s.prog p).swap.phase = .fadeOut)
    (cause : (s.prog p).swap.cause = some .select) (selected : (s.prog p).swap.selected = some r)
    (healthy : rankHealthy s (s.prog p) r = true) :
    ∃ u, Selecting p s u ∧ (u.prog p).markAt r = false ∧ eligible u (u.prog p) r = true ∧
      swapSwitch p s = changeSet p [r] .select u := by
  obtain ⟨selecting, marks⟩ := setMark_selecting (r := r) active fading false
  have clear : ((setMark p r false s).prog p).markAt r = false := by
    unfold Program.markAt; rw [marks]; exact Vector.getElem_set_self ..
  have fit : eligible (setMark p r false s) ((setMark p r false s).prog p) r = true := by
    obtain ⟨m, n, fell, record⟩ := selecting.record
    have same : rankHealthy (setMark p r false s) ((setMark p r false s).prog p) r = rankHealthy s (s.prog p) r :=
      rankHealthy_of_sets (by rw [record]) selecting.feeds r
    rw [eligible, same, healthy, clear]
    rfl
  refine ⟨_, selecting, clear, fit, ?_⟩
  unfold swapSwitch
  rw [cause, selected]
  unfold selectSwitch
  dsimp only
  rw [if_pos fit]

/-- Settles O34, by the failover choice (`keepSet_chosen`, `failoverSwitch_moves`) and `changeSet_setChanged`. -/
theorem switchChoosesSet : Obligations.SwitchChoosesSet := by
  intro s p live running fading empty
  have active : (s.prog p).active = true := (Program.active_iff _).2 (.inl running)
  have due : switchIsDue s p = true := by simp [switchIsDue, Program.running, running, fading, empty]
  have done : exec (.swapSwitch p) s = .next (judgePins (swapSwitch p s)) := by
    refine (onUnit_running live).trans ?_
    rw [if_pos due]
  refine ⟨fun why => ?_, fun r cause top fit => ?_, fun r cause selected healthy => ?_⟩
  · obtain ⟨u, fallen, same, clear⟩ := swapSwitch_falls active fading why
    have reached : exec (.swapSwitch p) s = .next (judgePins (failoverSwitch p
      (if (s.prog p).swap.cause = some .silence then .silence else .failover) u)) := by rw [← same]; exact done
    generalize (if (s.prog p).swap.cause = some .silence then SwapCause.silence else .failover) = c at *
    have chosen := failoverSwitch_chosen (c := c) fallen active
    have kept := failoverSwitch_kept (c := c) fallen active
    have moved (r : Rank) := failoverSwitch_moved (c := c) (r := r) fallen active
    generalize failoverSwitch p c u = t at *
    obtain ⟨swap, state, marks, others, feeds, store⟩ := chosen
    refine ⟨_, reached, ?_, ?_, ?_, ?_, others, feeds, store, fun r select chosen => ?_, fun stays => ?_,
      fun r off fit below => moved r off fit below⟩
    · rw [judgePins_prog, swap]
    · rw [judgePins_prog, swap]; exact empty
    · rw [judgePins_prog, swap]
    · rw [judgePins_prog, state]; exact running
    · rw [judgePins_prog, Program.markAt, marks]; exact clear r select chosen
    · obtain ⟨stack, delay, noSource, quiet⟩ := kept stays
      exact ⟨stack, delay, noSource, fun law => quiet (law.noSourceAt p)⟩
  · have same : swapSwitch p s = changeSet p (s.prog p).stack.dropLast .return s := by
      have on : returnEligible s (s.prog p) = true := by
        unfold returnEligible Program.returnRank; rw [top]; exact fit
      unfold swapSwitch returnSwitch
      rw [cause]
      dsimp only
      rw [if_pos on]
    have moved := changeSet_setChanged (c := .return) (.refl p s) active top fit
    have effect := (changeSet_changed (l := (s.prog p).stack.dropLast) (c := .return) active).effect
    rw [same] at done
    generalize changeSet p (s.prog p).stack.dropLast .return s = t at *
    obtain ⟨changed, stack, swap, -, -⟩ := moved
    refine ⟨_, done, stack, ?_, changed, effect.prog, effect.feeds, effect.quiet.store⟩
    rw [judgePins_prog, swap]
  · obtain ⟨u, selecting, clear, fit, same⟩ := swapSwitch_selects active fading cause selected healthy
    rw [same] at done
    have onward : (u.prog p).active = true := by
      obtain ⟨m, n, fell, record⟩ := selecting.record
      rw [record]; exact active
    have effect := (changeSet_changed (l := [r]) (c := .select) onward).effect
    have moved := changeSet_setChanged (c := .select) (l := [r]) selecting active rfl fit
    generalize changeSet p [r] .select u = t at *
    obtain ⟨changed, stack, swap, state, kept⟩ := moved
    obtain ⟨-, -, -, others, feeds, store⟩ := selecting.chosen effect swap state kept
    refine ⟨_, done, stack, ?_, ?_, changed, others, feeds, store⟩
    · rw [judgePins_prog, Program.markAt, kept]; exact clear
    · rw [judgePins_prog, swap]

end

end Sys2Proof.Machine
end

section
/-! PROOFS. The limiter: multipliers within their precision, the least of the terms of its gain, and the ceiling. -/
namespace Sys2Proof.Machine

/-! ## Multipliers (R106, R107) -/

/-- Whole parts of 2^-32 reached by a power of ten, over the rationals. -/
theorem powerReaches_iff (x : Rat) (n : Nat) :
    powerReaches x n = true ↔ ((n : Rat) / 2 ^ 32) ^ x.den ≤ (10 : Rat) ^ x.num := by
  have ten : (10 : Rat) ^ x.num * 10 ^ (-x.num).toNat = 10 ^ x.num.toNat := by
    rw [← zpow_natCast, ← zpow_natCast, ← zpow_add₀ (by norm_num)]
    congr 1
    omega
  have scale : (0 : Rat) < 2 ^ (32 * x.den) * 10 ^ (-x.num).toNat := by positivity
  have parts : ((n : Rat) / 2 ^ 32) ^ x.den * (2 ^ (32 * x.den) * 10 ^ (-x.num).toNat) = n ^ x.den * 10 ^ (-x.num).toNat := by
    rw [div_pow, ← pow_mul, ← mul_assoc, div_mul_cancel₀ _ (by positivity)]
  rw [powerReaches, decide_eq_true_iff, ← mul_le_mul_iff_of_pos_right scale, parts,
    show (10 : Rat) ^ x.num * (2 ^ (32 * x.den) * 10 ^ (-x.num).toNat) = 2 ^ (32 * x.den) * 10 ^ x.num.toNat by
      rw [← ten]; ring]
  exact_mod_cast Iff.rfl

/-- A power of ten from -2 on reaches one whole part. -/
theorem powerUnits_pos {x : Rat} (low : -2 ≤ x) : 1 ≤ powerUnits x := by
  by_contra none
  obtain ⟨-, missed⟩ := powerUnits_spec x
  rw [show powerUnits x = 0 by omega] at missed
  refine absurd missed (Bool.ne_false_iff.2 ?_)
  rw [powerReaches_iff]
  have num : -2 * (x.den : Int) ≤ x.num := by
    have den : (0 : Rat) < x.den := by exact_mod_cast x.den_pos
    have scaled : -2 * (x.den : Rat) ≤ x.num := by
      rw [← Rat.mul_den_eq_num x]; exact mul_le_mul_of_nonneg_right low den.le
    exact_mod_cast scaled
  calc (((0 + 1 : Nat) : Rat) / 2 ^ 32) ^ x.den ≤ ((10 : Rat) ^ (-2 : Int)) ^ x.den :=
        pow_le_pow_left₀ (by norm_num) (by norm_num) _
    _ = (10 : Rat) ^ (-2 * (x.den : Int)) := by rw [← zpow_natCast, ← zpow_mul]
    _ ≤ (10 : Rat) ^ x.num := zpow_le_zpow_right₀ (by norm_num) num

theorem clampUnit_bounds (x : Rat) : 0 ≤ clampUnit x ∧ clampUnit x ≤ 1 := by
  unfold clampUnit
  split
  · norm_num
  · split
    · norm_num
    · constructor <;> linarith

theorem linear_pos (g : Rat) : 0 < linear g := by
  unfold linear
  dsimp only
  split
  · positivity
  · split
    · assumption
    · norm_num

/-- Where the multiplier is not a rational power, it lies between the two whole parts about it. -/
theorem linear_between {g : Rat} (whole : (g / 200).den ≠ 1) (some : 1 ≤ powerUnits (g / 200)) :
    (powerUnits (g / 200) : Rat) / 2 ^ 32 ≤ linear g ∧ linear g ≤ ((powerUnits (g / 200) + 1 : Nat) : Rat) / 2 ^ 32 := by
  obtain ⟨low, high⟩ := clampUnit_bounds (Config.gainFraction (powerUnits (g / 200)))
  unfold linear
  dsimp only
  rw [if_neg whole]
  have count : (1 : Rat) ≤ powerUnits (g / 200) := by exact_mod_cast some
  push_cast
  generalize clampUnit _ = c at *
  generalize (powerUnits (g / 200) : Rat) = n at *
  rw [if_pos (by positivity)]
  constructor <;> linarith

theorem linear_precise {g : Rat} (low : -400 ≤ g) :
    (linear g - 1 / 2 ^ 32) ^ (g / 200).den ≤ (10 : Rat) ^ (g / 200).num ∧
      (10 : Rat) ^ (g / 200).num ≤ (linear g + 1 / 2 ^ 32) ^ (g / 200).den := by
  by_cases whole : (g / 200).den = 1
  · have exact_ : linear g = (10 : Rat) ^ (g / 200).num := if_pos whole
    rw [whole, exact_, pow_one, pow_one]
    constructor <;> linarith
  · have some : 1 ≤ powerUnits (g / 200) := powerUnits_pos (by linarith)
    obtain ⟨above, below⟩ := linear_between whole some
    obtain ⟨reached, missed⟩ := powerUnits_spec (g / 200)
    rw [powerReaches_iff] at reached
    rw [← Bool.not_eq_true, powerReaches_iff, not_le] at missed
    have count : (1 : Rat) ≤ powerUnits (g / 200) := by exact_mod_cast some
    push_cast at below missed
    generalize (powerUnits (g / 200) : Rat) = n at *
    constructor
    · exact (pow_le_pow_left₀ (by linarith) (by linarith) _).trans reached
    · exact missed.le.trans (pow_le_pow_left₀ (by linarith) (by linarith) _)

/-! ## Requirements (R107) -/

theorem absRat_eq (x : Rat) : absRat x = |x| := by
  unfold absRat
  split
  · rw [abs_of_neg ‹_›]
  · rw [abs_of_nonneg (not_lt.1 ‹_›)]

/-- A peak found from a value on bounds that value and every sample. -/
theorem peakFrom_bounds : ∀ (fr : List Rat) (m : Rat), m ≤ fr.foldl (fun m x => if m < absRat x then absRat x else m) m ∧
    ∀ x ∈ fr, absRat x ≤ fr.foldl (fun m x => if m < absRat x then absRat x else m) m
  | [], _ => ⟨le_rfl, fun _ h => absurd h List.not_mem_nil⟩
  | y :: fr, m => by
    obtain ⟨start, rest⟩ := peakFrom_bounds fr (if m < absRat y then absRat y else m)
    have larger : m ≤ (if m < absRat y then absRat y else m) ∧ absRat y ≤ (if m < absRat y then absRat y else m) := by
      split
      · exact ⟨le_of_lt ‹_›, le_rfl⟩
      · exact ⟨le_rfl, not_lt.1 ‹_›⟩
    rw [List.foldl_cons]
    refine ⟨larger.1.trans start, fun x hx => ?_⟩
    obtain rfl | hx := List.mem_cons.1 hx
    · exact larger.2.trans start
    · exact rest x hx

theorem framePeak_bounds (fr : List Rat) : 0 ≤ framePeak fr ∧ ∀ x ∈ fr, absRat x ≤ framePeak fr := peakFrom_bounds fr 0

theorem requirement_of_le {c : Int} {fr : List Rat} (h : framePeak fr ≤ linear c) : requirement c fr = 1 := if_pos h

theorem requirement_of_lt {c : Int} {fr : List Rat} (h : linear c < framePeak fr) :
    requirement c fr = linear c / framePeak fr := if_neg (not_le.2 h)

theorem requirement_pos (c : Int) (fr : List Rat) : 0 < requirement c fr := by
  obtain h | h := le_or_gt (framePeak fr) (linear c)
  · rw [requirement_of_le h]; norm_num
  · rw [requirement_of_lt h]
    exact div_pos (linear_pos _) ((linear_pos _).trans h)

/-- A gain of at most 1 and at most a frame's requirement holds the frame's samples under the ceiling. -/
theorem ceiling_holds {c : Int} {fr : List Rat} {gain x : Rat} (mem : x ∈ fr) (pos : 0 < gain) (unit : gain ≤ 1)
    (fits : gain ≤ requirement c fr) : absRat (x * gain) ≤ linear c := by
  have peak := (framePeak_bounds fr).2 x mem
  rw [absRat_eq] at peak ⊢
  rw [abs_mul, abs_of_pos pos]
  obtain h | h := le_or_gt (framePeak fr) (linear c)
  · calc |x| * gain ≤ |x| * 1 := mul_le_mul_of_nonneg_left unit (abs_nonneg x)
      _ = |x| := mul_one _
      _ ≤ linear c := peak.trans h
  · have loud : 0 < framePeak fr := (linear_pos _).trans h
    rw [requirement_of_lt h] at fits
    calc |x| * gain ≤ framePeak fr * (linear c / framePeak fr) := mul_le_mul peak fits pos.le loud.le
      _ = linear c := mul_div_cancel₀ _ loud.ne'

/-! ## The least of the terms (R107) -/

theorem lower_eq_min (x y : Rat) : lower x y = min x y := (min_def x y).symm

/-- The line a frame draws down from the present gain, d output samples before it leaves. -/
def lineOf (c : Int) (present : Rat) (d : Nat) (fr : List Rat) : Rat := present + (requirement c fr - present) / (d : Rat)

theorem lineOf_pos {c : Int} {present : Rat} {d : Nat} (pos : 0 < present) (some : 1 ≤ d) (fr : List Rat) :
    0 < lineOf c present d fr := by
  have count : (1 : Rat) ≤ d := by exact_mod_cast some
  have need := requirement_pos c fr
  have line : lineOf c present d fr = (present * (d - 1) + requirement c fr) / d := by
    unfold lineOf
    field_simp
    ring
  rw [line]
  exact div_pos (by nlinarith) (by linarith)

/-- The lines of the frames leave the least of the bound and of those drawn. -/
theorem lines_least (c : Int) (present : Rat) : ∀ (frs : List (List Rat)) (d : Nat) (bound : Rat),
    lines c present d frs bound ≤ bound ∧
    (∀ i fr, frs[i]? = some fr → requirement c fr < present → lines c present d frs bound ≤ lineOf c present (i + d) fr) ∧
    (lines c present d frs bound = bound ∨
      ∃ i fr, frs[i]? = some fr ∧ requirement c fr < present ∧ lines c present d frs bound = lineOf c present (i + d) fr)
  | [], _, _ => ⟨le_rfl, fun _ _ h => by simp at h, .inl rfl⟩
  | fr :: frs, d, bound => by
    obtain ⟨under, each, least⟩ := lines_least c present frs (d + 1)
      (if requirement c fr < present then lower bound (lineOf c present d fr) else bound)
    have same : lines c present d (fr :: frs) bound = lines c present (d + 1) frs
        (if requirement c fr < present then lower bound (lineOf c present d fr) else bound) := rfl
    rw [same]
    generalize lines c present (d + 1) frs _ = r at *
    rw [lower_eq_min] at under least
    refine ⟨under.trans (by split <;> simp), fun i x hx below => ?_, ?_⟩
    · cases i with
      | zero =>
        obtain rfl : fr = x := by simpa using hx
        rw [if_pos below] at under
        rw [Nat.zero_add]
        exact under.trans (min_le_right _ _)
      | succ i =>
        have later := each i x (by simpa using hx) below
        rwa [show i + (d + 1) = i + 1 + d by omega] at later
    · obtain here | ⟨i, x, hx, below, there⟩ := least
      · by_cases below : requirement c fr < present
        · rw [if_pos below] at here
          obtain first | second := min_choice bound (lineOf c present d fr)
          · exact .inl (here.trans first)
          · exact .inr ⟨0, fr, rfl, below, by rw [Nat.zero_add]; exact here.trans second⟩
        · exact .inl (by rw [if_neg below] at here; exact here)
      · exact .inr ⟨i + 1, x, by simpa using hx, below, by rw [there]; congr 1; omega⟩

/-- The limiter gain is the least of the release, the requirement of the frame leaving, and the lines. -/
theorem limiterGainOf_eq (c : Int) (present : Rat) (look : List (List Rat)) :
    limiterGainOf c present look =
      lines c present 1 look (min (min 1 (present + 1 / 4800)) (requirement c (look.headD []))) := by
  unfold limiterGainOf
  dsimp only
  rw [lower_eq_min]
  cases look with
  | cons fr look => dsimp only; rw [lower_eq_min]; rfl
  | nil =>
    have quiet : requirement c [] = 1 := requirement_of_le (linear_pos _).le
    rw [List.headD_nil, quiet, min_eq_left (min_le_left _ _)]

/-! ## The limiter at one output sample -/

section
variable {l : Loudness} {zs : List Rat}

theorem limit_gain (on : l.active.mode ≠ .bypass) : (l.limit zs).1.limiterGain =
    limiterGainOf l.active.ceiling l.limiterGain (fullLookahead l.lookahead) := if_neg on

theorem limit_out (l : Loudness) (zs : List Rat) :
    (l.limit zs).2 = ((fullLookahead l.lookahead).headD []).map (· * (l.limit zs).1.limiterGain) := rfl

/-- The gain stays positive: every term of it is. -/
theorem limit_gain_pos (on : l.active.mode ≠ .bypass) (pos : 0 < l.limiterGain) : 0 < (l.limit zs).1.limiterGain := by
  rw [limit_gain on, limiterGainOf_eq]
  obtain ⟨-, -, least | ⟨i, fr, -, -, least⟩⟩ := lines_least l.active.ceiling l.limiterGain (fullLookahead l.lookahead) 1
    (min (min 1 (l.limiterGain + 1 / 4800)) (requirement l.active.ceiling ((fullLookahead l.lookahead).headD [])))
  · rw [least]
    exact lt_min (lt_min (by norm_num) (by linarith)) (requirement_pos _ _)
  · rw [least]
    exact lineOf_pos pos (by omega) fr

/-- The gain is the least of its terms. -/
theorem limit_least (on : l.active.mode ≠ .bypass) :
    (l.limit zs).1.limiterGain ≤ min 1 (l.limiterGain + 1 / 4800) ∧
    (l.limit zs).1.limiterGain ≤ requirement l.active.ceiling ((fullLookahead l.lookahead).headD []) ∧
    (∀ i fr, (fullLookahead l.lookahead)[i]? = some fr → requirement l.active.ceiling fr < l.limiterGain →
      (l.limit zs).1.limiterGain ≤ lineOf l.active.ceiling l.limiterGain (i + 1) fr) ∧
    ((l.limit zs).1.limiterGain = min 1 (l.limiterGain + 1 / 4800) ∨
      (l.limit zs).1.limiterGain = requirement l.active.ceiling ((fullLookahead l.lookahead).headD []) ∨
      ∃ i fr, (fullLookahead l.lookahead)[i]? = some fr ∧ requirement l.active.ceiling fr < l.limiterGain ∧
        (l.limit zs).1.limiterGain = lineOf l.active.ceiling l.limiterGain (i + 1) fr) := by
  obtain ⟨under, each, least⟩ := lines_least l.active.ceiling l.limiterGain (fullLookahead l.lookahead) 1
    (min (min 1 (l.limiterGain + 1 / 4800)) (requirement l.active.ceiling ((fullLookahead l.lookahead).headD [])))
  rw [limit_gain on, limiterGainOf_eq]
  refine ⟨under.trans (min_le_left _ _), under.trans (min_le_right _ _), each, ?_⟩
  obtain here | drawn := least
  · obtain release | need := min_choice (min 1 (l.limiterGain + 1 / 4800))
      (requirement l.active.ceiling ((fullLookahead l.lookahead).headD []))
    · exact .inl (here.trans release)
    · exact .inr (.inl (here.trans need))
  · exact .inr (.inr drawn)

/-- In BYPASS the frames of a full lookahead pass unchanged (R103, R108). -/
theorem limit_bypass (off : l.active.mode = .bypass) (full : l.lookahead.length = 48) :
    (l.limit zs).2 = l.lookahead.headD [] ∧ (l.limit zs).1.limiterGain = 1 ∧
      (l.limit zs).1.lookahead = l.lookahead.drop 1 ++ [zs] ∧ (l.limit zs).1.heldDown = l.heldDown := by
  have look : fullLookahead l.lookahead = l.lookahead := by
    unfold fullLookahead
    rw [full]
    rfl
  have gain : (l.limit zs).1.limiterGain = 1 := if_pos off
  have held : (l.limit zs).1.heldDown = if (l.limit zs).1.limiterGain < 1 then satAdd Config.blockSamples l.heldDown 1
    else l.heldDown := rfl
  have moved : (l.limit zs).1.lookahead = (fullLookahead l.lookahead).drop 1 ++ [zs] := rfl
  rw [limit_out, held, moved, gain, look]
  refine ⟨?_, rfl, rfl, if_neg (lt_irrefl _)⟩
  simp only [mul_one, List.map_id']

/-- Settles O41, by `linear_precise`, `limit_least` and `ceiling_holds`. -/
theorem limiterHoldsCeiling : Obligations.LimiterHoldsCeiling := by
  refine ⟨fun g => ⟨linear_pos g, fun low _ => linear_precise low⟩, fun l zs => ⟨fun on pos unit => ?_, fun on => ?_,
    fun fr => ⟨requirement_of_le, requirement_of_lt, (framePeak_bounds fr).2⟩, limit_bypass⟩⟩
  · obtain ⟨release, fits, -, -⟩ := limit_least (zs := zs) on
    have positive := limit_gain_pos (zs := zs) on pos
    have most := release.trans (min_le_left _ _)
    refine ⟨fun x hx => ?_, positive, most, release.trans (min_le_right _ _)⟩
    rw [limit_out] at hx
    obtain ⟨y, hy, rfl⟩ := List.mem_map.1 hx
    exact ceiling_holds hy positive most fits
  · obtain ⟨release, fits, each, least⟩ := limit_least (zs := zs) on
    exact ⟨release, fits, each, least, rfl, rfl, rfl⟩

end

end Sys2Proof.Machine
end

section
/-! PROOFS. The raise and the release of an alarm entry: at once, and at its expiry. -/
namespace Sys2Proof.Machine

/-! ## Entries under what an entry hands over (R140) -/

/-- Two states agree on every entry but those of NO_SOURCE. -/
structure EntriesKept (s t : State) : Prop where
  entry : ∀ e, (∀ p, e ≠ progEntry p .noSource) → t.entry e = s.entry e

namespace EntriesKept
variable {s t u : State}

theorem refl (s : State) : EntriesKept s s := ⟨fun _ _ => rfl⟩

theorem trans (h : EntriesKept s t) (g : EntriesKept t u) : EntriesKept s u :=
  ⟨fun e he => (g.entry e he).trans (h.entry e he)⟩

theorem ofEntries (h : t.entries = s.entries) : EntriesKept s t := ⟨fun e _ => State.entry_congr h e⟩

theorem judgeNoSource (p : ProgId) (s : State) : EntriesKept s (judgeNoSource p s) := ⟨fun e he => by
  unfold Machine.judgeNoSource followQuiet
  rw [follow_entry, if_neg fun h => he p h.1]⟩

theorem eligibilityEvent (p : ProgId) (s : State) : EntriesKept s (eligibilityEvent p s) := by
  unfold Machine.eligibilityEvent
  split
  · refine (judgeNoSource p s).trans (.ofEntries ?_)
    unfold noSourceRelease judgeReturnSet
    dsimp only
    split <;> split <;> rfl
  · exact .refl s

theorem healthReaches (f : FeedId) (p : ProgId) (s : State) : EntriesKept s (healthReaches f p s) := by
  have event : EntriesKept s (if (s.prog p).namesFeed f then Machine.eligibilityEvent p s else s) := by
    split
    · exact eligibilityEvent p s
    · exact .refl s
  unfold Machine.healthReaches
  dsimp only
  generalize (if (s.prog p).namesFeed f then Machine.eligibilityEvent p s else s) = t at event ⊢
  split
  · exact event
  · refine event.trans (.ofEntries ?_)
    unfold feedTrigger
    dsimp only
    split <;> rfl

theorem judgeHealth (f : FeedId) (s : State) : EntriesKept s (judgeHealth f s) := by
  unfold Machine.judgeHealth
  dsimp only
  split
  · exact .refl s
  · have stored : EntriesKept s (s.setFeed f { s.feed f with healthy := healthTest s f }) := .ofEntries rfl
    exact stored.trans (forEach_relation .refl .trans (fun p t => healthReaches f p t) allProgs _)

theorem setMark (p : ProgId) (r : Rank) (v : Bool) (s : State) : EntriesKept s (setMark p r v s) :=
  (EntriesKept.ofEntries (s := s) (t := s.onProg p (·.withMark r v)) rfl).trans (eligibilityEvent p _)

theorem markSuspect (p : ProgId) (r : Option Rank) (s : State) : EntriesKept s (markSuspect p r s) := by
  unfold Machine.markSuspect
  split
  · exact .refl s
  · exact setMark ..

theorem onProg (h : EntriesKept s t) (p : ProgId) (g : Program → Program) : EntriesKept s (t.onProg p g) :=
  h.trans (.ofEntries rfl)

theorem silenceTrigger (p : ProgId) (s : State) : EntriesKept s (silenceTrigger p s) := by
  have marked (r : Option Rank) := markSuspect p r s
  unfold Machine.silenceTrigger
  dsimp only
  split
  · exact .refl s
  · split
    · split
      · exact marked _
      · exact (marked _).onProg ..
    · exact (marked _).onProg ..
    · split
      · exact (marked _).onProg ..
      · exact marked _

end EntriesKept

/-- An entry keeps its record while what it hands over is acted on. -/
theorem handOver_entry_self (e : EntryId) (o : Handover) (s : State) : (handOver e o s).entry e = s.entry e := by
  unfold handOver
  split
  · split
    · rfl
    · next source =>
      refine (EntriesKept.judgeHealth _ s).entry e fun p same => ?_
      rw [same, entrySource_progEntry] at source
      cases source
    · split
      · next same =>
        refine (EntriesKept.silenceTrigger _ s).entry e fun q noSource => ?_
        exact progEntry_ne (by decide) _ _ (same.symm.trans noSource)
      · rfl
    · rfl
    · rfl
  · rfl

/-! ## The raise (R137) -/

section
variable {e : EntryId} {f : FeedId} {k : FeedCond} {s u : State}

theorem entryNotice_silent {n : NoticeKind} (silent : (s.entry e).config.severity = .off) : entryNotice n e s = s :=
  if_pos silent

/-- An entry's own notice is reported unless its severity is OFF. -/
theorem entryNotice_reported {n : NoticeKind} (loud : (s.entry e).config.severity ≠ .off) :
    Reported n (entrySource e) [BitVec.ofNat 8 e.val, BitVec.ofNat 8 (s.entry e).config.severity.code,
      BitVec.ofNat 8 (s.entry e).raiseCount] s (entryNotice n e s) := by
  unfold entryNotice
  dsimp only
  rw [if_neg loud]
  exact .of (.refl s) rfl (.refl _)

theorem raiseEntry_reported (loud : (s.entry e).config.severity ≠ .off) :
    Reported .alarmRaised (entrySource e) [BitVec.ofNat 8 e.val, BitVec.ofNat 8 (s.entry e).config.severity.code,
      BitVec.ofNat 8 (min ((s.entry e).raiseCount + 1) 255)] s (raiseEntry e s) := by
  have put : Grows s (s.setEntry e ((s.entry e).raised s.blockCounter)) := .same rfl rfl
  have here : (s.setEntry e ((s.entry e).raised s.blockCounter)).entry e = (s.entry e).raised s.blockCounter :=
    State.setEntry_entry_self ..
  have reported := entryNotice_reported (n := .alarmRaised) (e := e)
    (s := s.setEntry e ((s.entry e).raised s.blockCounter)) (by rw [here]; exact loud)
  rw [here] at reported
  exact .congr put rfl reported (.refl _)

theorem releaseEntry_reported (loud : (s.entry e).config.severity ≠ .off) :
    Reported .alarmCleared (entrySource e) [BitVec.ofNat 8 e.val, BitVec.ofNat 8 (s.entry e).config.severity.code,
      BitVec.ofNat 8 (s.entry e).raiseCount] s (releaseEntry e s) := by
  have put : Grows s (s.setEntry e (s.entry e).cleared) := .same rfl rfl
  have here : (s.setEntry e (s.entry e).cleared).entry e = (s.entry e).cleared := State.setEntry_entry_self ..
  have reported := entryNotice_reported (n := .alarmCleared) (e := e) (s := s.setEntry e (s.entry e).cleared)
    (by rw [here]; exact loud)
  rw [here] at reported
  exact .congr put rfl reported (.refl _)

theorem raiseEntry_silent (silent : (s.entry e).config.severity = .off) :
    (raiseEntry e s).notices = s.notices ∧ (raiseEntry e s).missed = s.missed := by
  rw [raiseEntry, entryNotice_silent (by rw [State.setEntry_entry_self]; exact silent)]
  exact ⟨rfl, rfl⟩

theorem releaseEntry_silent (silent : (s.entry e).config.severity = .off) :
    (releaseEntry e s).notices = s.notices ∧ (releaseEntry e s).missed = s.missed := by
  rw [releaseEntry, entryNotice_silent (by rw [State.setEntry_entry_self]; exact silent)]
  exact ⟨rfl, rfl⟩

theorem handOver_grows (e : EntryId) (o : Handover) (s : State) : Grows s (handOver e o s) :=
  (AlarmSteps.refl.handOver e o).grows

/-- A change of one entry's record moves no swap. -/
theorem EntryEffect.unmoved {d : EntryId} (h : EntryEffect d s u) : Unmoved s u :=
  .ofProgs h.progs (fun g => by rw [State.feed_congr h.feeds]) (fun _ => State.cond_congr h.conds _)
    fun _ => State.cond_congr h.conds _

theorem judgeHealth_otherFeeds (f : FeedId) (s : State) : OtherFeedsKept f s (judgeHealth f s) := by
  intro g other
  unfold judgeHealth
  dsimp only
  split
  · rfl
  · have feeds := forEach_proj (π := State.feeds) (fun p t => (ProgEffect.healthReaches f p t).feeds) allProgs
      (s.setFeed f { s.feed f with healthy := healthTest s f })
    rw [State.feed_congr feeds, State.setFeed_feed_ne other]

/-- The raise of a feed entry with action FAILOVER makes its feed unhealthy (R62, R70). -/
theorem raise_lost (unmoved : Unmoved s u) (feeds : u.feeds = s.feeds)
    (action : (u.entry (feedEntry f k)).config.action = .failover) :
    HealthLost f s (handOver (feedEntry f k) .raised (raiseEntry (feedEntry f k) u)) ∧
      OtherFeedsKept f s (handOver (feedEntry f k) .raised (raiseEntry (feedEntry f k) u)) ∧
      ((s.feed f).healthy = false →
        (handOver (feedEntry f k) .raised (raiseEntry (feedEntry f k) u)).progs = u.progs) := by
  have raised : (raiseEntry (feedEntry f k) u).entry (feedEntry f k) = (u.entry (feedEntry f k)).raised u.blockCounter := by
    rw [raiseEntry_entry, if_pos rfl]
  have effect : EntryEffect (feedEntry f k) u (raiseEntry (feedEntry f k) u) := .raiseEntry ..
  have handed : handOver (feedEntry f k) .raised (raiseEntry (feedEntry f k) u) =
      judgeHealth f (raiseEntry (feedEntry f k) u) := by
    unfold handOver
    rw [entrySource_feedEntry, raised]
    exact if_pos action
  have before := unmoved.trans effect.unmoved
  rw [handed]
  generalize raiseEntry (feedEntry f k) u = v at *
  have down : (v.entry (feedEntry f k)).down = true := by rw [raised]; simp [Entry.down, Entry.raised, action]
  have test : healthTest v f = false := healthTest_down down
  refine ⟨.congr before (.refl _) (judgeHealth_lost test), fun g other => ?_, fun ill => ?_⟩
  · rw [judgeHealth_otherFeeds f v g other, State.feed_congr effect.feeds, State.feed_congr feeds]
  · have same : (v.feed f).healthy = healthTest v f := by rw [test, before.healthy f, ill]
    rw [judgeHealth_of_eq same, effect.progs]

/-- The release of the last entry that holds a feed unhealthy makes it healthy (R62, R76). -/
theorem release_gained (unmoved : Unmoved s u) (feeds : u.feeds = s.feeds) (entries : ∀ j, u.entry j = s.entry j)
    (action : (u.entry (feedEntry f k)).config.action = .failover) (ill : (s.feed f).healthy = false)
    (enabled : (s.feed f).port.enable = true)
    (last : ∀ k', k' ≠ k → ¬HoldsUnhealthy (s.entry (feedEntry f k'))) :
    HealthGained f s (handOver (feedEntry f k) .released (releaseEntry (feedEntry f k) u)) ∧
      OtherFeedsKept f s (handOver (feedEntry f k) .released (releaseEntry (feedEntry f k) u)) := by
  have released (j : FeedCond) : (releaseEntry (feedEntry f k) u).entry (feedEntry f j) =
      if j = k then (s.entry (feedEntry f k)).cleared else s.entry (feedEntry f j) := by
    have own : feedEntry f j = feedEntry f k ↔ j = k := ⟨fun h => (feedEntry_inj h).2, fun h => h ▸ rfl⟩
    rw [releaseEntry_entry]
    simp only [own, entries]
  have effect : EntryEffect (feedEntry f k) u (releaseEntry (feedEntry f k) u) := .releaseEntry ..
  have handed : handOver (feedEntry f k) .released (releaseEntry (feedEntry f k) u) =
      judgeHealth f (releaseEntry (feedEntry f k) u) := by
    unfold handOver
    rw [entrySource_feedEntry, released, if_pos rfl, ← entries]
    exact if_pos action
  have before := unmoved.trans effect.unmoved
  rw [handed]
  generalize releaseEntry (feedEntry f k) u = v at *
  have up : Up f v := up_iff.2 fun j => by
    rw [released]
    split
    · rintro ⟨-, state | state⟩ <;> cases state
    · exact last j ‹_›
  have on : (v.feed f).port.enable = true := by rw [State.feed_congr effect.feeds, State.feed_congr feeds, enabled]
  have test : healthTest v f = true := (healthTest_up up).trans on
  refine ⟨.congr before (.refl _) (judgeHealth_gained test ((before.healthy f).trans ill)), fun g other => ?_⟩
  rw [judgeHealth_otherFeeds f v g other, State.feed_congr effect.feeds, State.feed_congr feeds]

end

end Sys2Proof.Machine
end

section
/-! PROOFS. The work of a block close, piece by piece: its order, and what the other pieces leave of a program between
the work that measures it and the level conditions. -/
namespace Sys2Proof.Machine

/-! ## The order of a close (R85; log 23) -/

theorem forEach_append {α : Type} (l₁ l₂ : List α) (f : α → State → State) (s : State) :
    forEach (l₁ ++ l₂) f s = forEach l₂ f (forEach l₁ f s) := List.foldl_append

/-- The state in which the work of a close begins: the counter has advanced and a new block has begun. -/
def closeBegun (s : State) : State := { s with blockCounter := s.blockCounter + 1, sampleInBlock := 0 }

/-- The pieces of a close from a list, for the programs measured at it. -/
def closing (o : CloseOrder) (s : State) (l : List CloseWork) (t : State) : State :=
  forEach l (closeWork o fun p => formsBlock (s.prog p)) t

/-- Each piece of a close is done once, with the others before it and behind it. -/
theorem blockClose_at (o : CloseOrder) (s : State) (w : CloseWork) : ∃ l₁ l₂, w ∉ l₁ ∧ w ∉ l₂ ∧
    blockClose o s =
      closing o s l₂ (closeWork o (fun p => formsBlock (s.prog p)) w (closing o s l₁ (closeBegun s))) := by
  obtain ⟨a, b, order, once, all, -⟩ := closeWorks_split o
  rw [← order] at once all
  obtain ⟨l₁, l₂, cut⟩ := List.append_of_mem (all w)
  rw [cut] at once
  obtain ⟨-, once₂, apart⟩ := List.nodup_append'.1 once
  refine ⟨l₁, l₂, fun h => apart h List.mem_cons_self, (List.nodup_cons.1 once₂).1, ?_⟩
  unfold blockClose closing
  rw [cut, forEach_append]
  rfl

/-- The pieces of a close about one program's measurement: what stands before it, between it and the level conditions,
and behind those. -/
structure Course (o : CloseOrder) (p : ProgId) where
  before : List CloseWork
  between : List CloseWork
  behind : List CloseWork
  order : closeWorks o = before ++ .measure p :: between ++ .levels :: behind
  measured : .measure p ∉ before ∧ .measure p ∉ between ∧ .measure p ∉ behind
  levels : .levels ∉ before ∧ .levels ∉ between ∧ .levels ∉ behind
  loudness : LoudnessFirst o → ∀ w ∈ before, isMeasure w = true

theorem takeWhile_levels {a b : List CloseWork} (off : .levels ∉ a) :
    (a ++ .levels :: b).takeWhile (· != .levels) = a := by
  rw [List.takeWhile_append_of_pos fun w hw => bne_iff_ne.2 fun same => off (by rw [← same]; exact hw)]
  simp

/-- Where the loudness work comes first, nothing but measurements stands before the level conditions. -/
theorem closeWorks_loudnessFirst {o : CloseOrder} (first : LoudnessFirst o) {a b : List CloseWork}
    (order : closeWorks o = a ++ .levels :: b) (off : .levels ∉ a) : ∀ w ∈ a, isMeasure w = true := by
  have measures (w : CloseWork) (h : w ∈ allProgs.map CloseWork.measure) : isMeasure w = true := by
    obtain ⟨p, -, rfl⟩ := List.mem_map.1 h
    rfl
  have notLevels (w : CloseWork) (h : isMeasure w = true) : w ≠ .levels := by rintro rfl; cases h
  have head : ∀ w ∈ onceEach o.first, isMeasure w = true := fun w hw => first w ((mem_onceEach _).1 hw)
  have absent : .levels ∉ onceEach o.first := fun h => notLevels _ (head _ h) rfl
  obtain ⟨rest, works⟩ : ∃ rest, onceEach o.first ++ allWorks.filter (fun w => !(onceEach o.first).contains w) =
      (onceEach o.first ++ (allProgs.map CloseWork.measure).filter fun w => !(onceEach o.first).contains w) ++
        .levels :: rest := by
    refine ⟨(allFeeds.map CloseWork.slip ++ allEntries.map CloseWork.alarm ++ allProgs.map CloseWork.returns).filter
      fun w => !(onceEach o.first).contains w, ?_⟩
    have stays : (!(onceEach o.first).contains CloseWork.levels) = true := by simpa using absent
    unfold allWorks
    simp only [List.append_assoc, List.filter_append, List.filter_cons, List.nil_append, stays, if_true,
      List.cons_append]
  have early : ∀ w ∈ (onceEach o.first ++ (allProgs.map CloseWork.measure).filter fun w =>
      !(onceEach o.first).contains w), isMeasure w = true := fun w hw => by
    obtain hw | hw := List.mem_append.1 hw
    · exact head w hw
    · exact measures w (List.mem_filter.1 hw).1
  generalize (onceEach o.first ++ (allProgs.map CloseWork.measure).filter fun w => !(onceEach o.first).contains w) = x at *
  have front := takeWhile_levels (b := rest) fun h => notLevels _ (early _ h) rfl
  have forward : closeWorks o = (x ++ (((x ++ .levels :: rest).dropWhile (· != .levels)).drop 1).filter isMeasure) ++
      .levels :: (((x ++ .levels :: rest).dropWhile (· != .levels)).drop 1).filter (!isMeasure ·) := by
    unfold closeWorks measuresForward
    dsimp only
    rw [works, front]
  generalize ((x ++ .levels :: rest).dropWhile (· != .levels)).drop 1 = y at forward
  have all : ∀ w ∈ x ++ y.filter isMeasure, isMeasure w = true := fun w hw => by
    obtain hw | hw := List.mem_append.1 hw
    · exact early w hw
    · exact (List.mem_filter.1 hw).2
  have same := congrArg (List.takeWhile (· != .levels)) (order.symm.trans forward)
  rw [takeWhile_levels off, takeWhile_levels fun h => notLevels _ (all _ h) rfl] at same
  rw [same]
  exact all

theorem closeWorks_course (o : CloseOrder) (p : ProgId) : Nonempty (Course o p) := by
  obtain ⟨a, b, order, once, all, last⟩ := closeWorks_split o
  have loudness := fun first => closeWorks_loudnessFirst (o := o) first order
  have mem : .measure p ∈ a := by
    obtain h | h := List.mem_append.1 (all (.measure p))
    · exact h
    · obtain h | h := List.mem_cons.1 h
      · cases h
      · exact absurd (last _ h) Bool.noConfusion
  obtain ⟨l₁, l₂, cut⟩ := List.append_of_mem mem
  obtain ⟨onceA, onceB, apart⟩ := List.nodup_append'.1 once
  have offA : .levels ∉ a := fun h => apart h List.mem_cons_self
  have offB : .levels ∉ b := (List.nodup_cons.1 onceB).1
  rw [cut] at onceA offA order
  obtain ⟨-, once₂, apart₂⟩ := List.nodup_append'.1 onceA
  refine ⟨⟨l₁, l₂, b, order, ⟨fun h => apart₂ h List.mem_cons_self, (List.nodup_cons.1 once₂).1, fun h =>
    absurd (last _ h) Bool.noConfusion⟩, ⟨fun h => offA (List.mem_append_left _ h), fun h =>
    offA (List.mem_append_right _ (List.mem_cons_of_mem _ h)), offB⟩, fun first w hw => ?_⟩⟩
  refine loudness first (by rw [cut]; exact offA) w (by rw [cut]; exact List.mem_append_left _ hw)

/-- A close along the course of one program. -/
theorem blockClose_along {o : CloseOrder} {p : ProgId} (c : Course o p) (s : State) : blockClose o s =
    closing o s c.behind (closeLevels (fun p => formsBlock (s.prog p)) (closing o s c.between
      (closeController p (closing o s c.before (closeBegun s))))) := by
  unfold blockClose closing
  rw [c.order, List.append_assoc, forEach_append, List.cons_append, forEach_cons, forEach_append, forEach_cons]
  rfl

/-! ## Swaps only begin (R65) -/

/-- A swap in flight stays in flight, of every program. -/
structure SwapsStay (s t : State) : Prop where
  swapping : ∀ p, (s.prog p).swapping = true → (t.prog p).swapping = true

namespace SwapsStay
variable {s t u : State}

theorem refl (s : State) : SwapsStay s s := ⟨fun _ h => h⟩

theorem trans (h : SwapsStay s t) (g : SwapsStay t u) : SwapsStay s u := ⟨fun p on => g.swapping p (h.swapping p on)⟩

theorem ofProgs (h : t.progs = s.progs) : SwapsStay s t := ⟨fun p on => by rw [State.prog_congr h p]; exact on⟩

theorem onProg {g : Program → Program} {p : ProgId} {s : State}
    (stays : (s.prog p).swapping = true → (g (s.prog p)).swapping = true) : SwapsStay s (s.onProg p g) := by
  refine ⟨fun q on => ?_⟩
  rw [State.onProg_eq]
  by_cases here : q = p
  · subst here; rw [State.setProg_prog_self]; exact stays on
  · rw [State.setProg_prog_ne here]; exact on

theorem startFadeOut (c : SwapCause) (r : Option Rank) (p : ProgId) (s : State) :
    SwapsStay s (s.onProg p (·.startFadeOut c r)) := .onProg fun _ => rfl

theorem triggered (c : SwapCause) (p : ProgId) (s : State) : SwapsStay s (s.onProg p (·.triggered c)) := by
  refine .onProg fun on => ?_
  unfold Program.triggered
  split
  · rfl
  · exact on
  · rfl

theorem entry {e : EntryId} (h : EntryEffect e s t) : SwapsStay s t := .ofProgs h.progs

theorem follow (e : EntryId) (v : Bool) (s : State) : SwapsStay s (follow e v s).1 :=
  ⟨fun p on => by rw [follow_prog]; exact on⟩

theorem eligibilityEvent (p : ProgId) (s : State) : SwapsStay s (eligibilityEvent p s) := by
  unfold Machine.eligibilityEvent
  split
  · have judged : SwapsStay s (judgeReturnSet p (judgeNoSource p s)) := by
      unfold judgeReturnSet
      split
      · exact (follow _ _ s).trans (.onProg id)
      · exact follow _ _ s
    unfold noSourceRelease
    dsimp only
    split
    · exact judged.trans (triggered ..)
    · exact judged
  · exact .refl s

theorem judgeHealth (f : FeedId) (s : State) : SwapsStay s (judgeHealth f s) := by
  have reaches (p : ProgId) (t : State) : SwapsStay t (healthReaches f p t) := by
    have event : SwapsStay t (if (t.prog p).namesFeed f then Machine.eligibilityEvent p t else t) := by
      split
      · exact eligibilityEvent p t
      · exact .refl t
    unfold healthReaches
    dsimp only
    generalize (if (t.prog p).namesFeed f then Machine.eligibilityEvent p t else t) = u at event ⊢
    split
    · exact event
    · refine event.trans ?_
      unfold feedTrigger
      dsimp only
      split
      · exact triggered ..
      · exact .refl u
  unfold Machine.judgeHealth
  dsimp only
  split
  · exact .refl s
  · have stored : SwapsStay s (s.setFeed f { s.feed f with healthy := healthTest s f }) := .ofProgs rfl
    exact stored.trans (forEach_relation .refl .trans reaches allProgs _)

theorem markSuspect (p : ProgId) (r : Option Rank) (s : State) : SwapsStay s (markSuspect p r s) := by
  unfold Machine.markSuspect setMark
  split
  · exact .refl s
  · exact (onProg (g := (·.withMark _ true)) id).trans (eligibilityEvent p _)

theorem silenceTrigger (p : ProgId) (s : State) : SwapsStay s (silenceTrigger p s) := by
  have marked (r : Option Rank) := markSuspect p r s
  have silenced (t : State) : SwapsStay t (t.onProg p Program.silencedFadeOut) := by
    refine .onProg fun on => ?_
    unfold Program.silencedFadeOut
    split <;> exact on
  unfold Machine.silenceTrigger
  dsimp only
  split
  · exact .refl s
  · split
    · split
      · exact marked _
      · exact (marked _).trans (startFadeOut ..)
    · exact (marked _).trans (silenced _)
    · split
      · exact (marked _).trans (startFadeOut ..)
      · exact marked _

theorem handOver (e : EntryId) (o : Handover) (s : State) : SwapsStay s (handOver e o s) := by
  unfold Machine.handOver
  split
  · split
    · exact .refl s
    · exact judgeHealth ..
    · split
      · exact silenceTrigger ..
      · exact .refl s
    · exact .refl s
    · exact .refl s
  · exact .refl s

theorem setCond (e : EntryId) (v : Bool) (s : State) : SwapsStay s (setCond e v s) :=
  (follow e v s).trans (handOver ..)

theorem closeAlarm (apart : Bool) (e : EntryId) (s : State) : SwapsStay s (closeAlarm apart e s) := by
  have counted : SwapsStay s (countTimer e s) := by
    refine .ofProgs ?_
    unfold countTimer
    dsimp only
    split <;> rfl
  have raised (t : State) : SwapsStay t (expireRaise e t) := by
    unfold expireRaise
    split
    · exact (entry (.raiseEntry e t)).trans (handOver ..)
    · exact .refl t
  have released (t : State) : SwapsStay t (expireClear e t) := by
    unfold expireClear
    split
    · exact (entry (.releaseEntry e t)).trans (handOver ..)
    · exact .refl t
  unfold Machine.closeAlarm
  dsimp only
  split
  · exact counted
  · exact (counted.trans (raised _)).trans (released _)

theorem closeReturn (apart : Bool) (p : ProgId) (s : State) : SwapsStay s (closeReturn apart p s) := by
  have counted : SwapsStay s (countReturn p s) := by
    unfold countReturn
    dsimp only
    split
    · split
      · exact .onProg id
      · exact .onProg id
    · exact .onProg id
  unfold Machine.closeReturn beginReturn
  dsimp only
  split
  · exact counted
  · split
    · exact counted.trans (.onProg fun _ => rfl)
    · exact counted

end SwapsStay

end Sys2Proof.Machine
end

section
/-! PROOFS. One program through a block close: what the other pieces leave of it, what its own measurement makes of it, and
what the level conditions add. -/
namespace Sys2Proof.Machine

/-! ## The pieces that are not the program's own (R36, R73, R135) -/

/-- What the pieces of a close besides its own measurement and the level conditions leave of a program. -/
structure Around (p : ProgId) (s t : State) : Prop where
  prog : t.prog p =
    { s.prog p with
      swap := (t.prog p).swap, marks := (t.prog p).marks, returnTimer := (t.prog p).returnTimer
      returnFell := (t.prog p).returnFell }
  swapping : (s.prog p).swapping = true → (t.prog p).swapping = true
  conds : ∀ k, k ≠ .noSource → t.progCond p k = s.progCond p k

namespace Around
variable {p : ProgId} {s t u : State}

theorem refl (p : ProgId) (s : State) : Around p s s := ⟨rfl, id, fun _ _ => rfl⟩

theorem trans (h : Around p s t) (g : Around p t u) : Around p s u :=
  ⟨by rw [g.prog, h.prog], fun on => g.swapping (h.swapping on), fun k other => (g.conds k other).trans (h.conds k other)⟩

theorem ofAlarm (h : AlarmEffect s t) (stay : SwapsStay s t) : Around p s t :=
  ⟨h.prog p, stay.swapping p, fun _ other => h.cond _ fun _ => progEntry_ne other _ _⟩

theorem ofSame (prog : t.prog p = s.prog p) (conds : ∀ k, t.progCond p k = s.progCond p k) : Around p s t :=
  ⟨by rw [prog], by rw [prog]; exact id, fun k _ => conds k⟩

theorem ofProg {q : ProgId} (h : ProgEffect q s t) (other : p ≠ q) : Around p s t :=
  .ofSame (h.prog p other) fun _ => h.cond _ fun _ same => other (progEntry_inj same).1

theorem closeReturn (apart : Bool) (p : ProgId) (s : State) : Around p s (closeReturn apart p s) := by
  have stay := SwapsStay.closeReturn apart p s
  have record : ∃ w n fell, (Machine.closeReturn apart p s).prog p =
      { s.prog p with swap := w, returnTimer := n, returnFell := fell } := by
    have counted : ∃ n fell, (countReturn p s).prog p = { s.prog p with returnTimer := n, returnFell := fell } := by
      unfold countReturn
      dsimp only
      split
      · split
        · exact ⟨_, _, State.setProg_prog_self ..⟩
        · exact ⟨_, _, State.setProg_prog_self ..⟩
      · exact ⟨_, _, State.setProg_prog_self ..⟩
    obtain ⟨n, fell, counted⟩ := counted
    unfold Machine.closeReturn beginReturn
    dsimp only
    split
    · exact ⟨_, n, fell, counted⟩
    · split
      · refine ⟨((countReturn p s).prog p).startReturn.swap, 0, false, (State.setProg_prog_self ..).trans ?_⟩
        rw [counted]
        rfl
      · exact ⟨_, n, fell, counted⟩
  have conds : (Machine.closeReturn apart p s).conds = s.conds := by
    have counted : (countReturn p s).conds = s.conds := by
      unfold countReturn
      dsimp only
      split
      · split <;> rfl
      · rfl
    unfold Machine.closeReturn beginReturn
    dsimp only
    split
    · exact counted
    · split <;> exact counted
  obtain ⟨w, n, fell, record⟩ := record
  exact ⟨by rw [record], stay.swapping p, fun _ _ => State.cond_congr conds _⟩

theorem closeWork {w : CloseWork} (o : CloseOrder) (formed : ProgId → Bool) (measure : w ≠ .measure p) (levels : w ≠ .levels)
    (s : State) : Around p s (closeWork o formed w s) := by
  cases w with
  | slip f =>
    have put : Around p s (s.setCondBit (feedEntry f .srcSlip) false) :=
      .ofSame rfl fun k => State.setCondBit_cond_ne (fun h => feedEntry_ne_progEntry _ _ _ _ h.symm) ..
    have stay := SwapsStay.setCond (feedEntry f .srcSlip) false s
    exact put.trans (.ofAlarm (setFeedCond_effect f .srcSlip false s) ⟨fun q on => stay.swapping q on⟩)
  | measure q => exact .ofProg (.closeController q s) fun same => measure (by rw [same])
  | levels => exact absurd rfl levels
  | alarm e =>
    have stay := SwapsStay.closeAlarm o.expiriesApart e s
    have counted : Around p s (countTimer e s) := by
      unfold countTimer
      dsimp only
      split <;> exact .ofSame rfl fun _ => rfl
    have effect : AlarmEffect (countTimer e s) (closeAlarm o.expiriesApart e s) := by
      unfold closeAlarm
      dsimp only
      split
      · exact .refl _
      · exact (AlarmEffect.expireRaise e _).trans (.expireClear e _)
    refine counted.trans ⟨effect.prog p, fun on => stay.swapping p ?_, fun k other => effect.cond _ fun _ =>
      progEntry_ne other _ _⟩
    have same : (countTimer e s).prog p = s.prog p := by
      unfold countTimer
      dsimp only
      split <;> rfl
    rwa [same] at on
  | returns q =>
    by_cases own : q = p
    · subst own; exact closeReturn ..
    · exact .ofProg (.closeReturn _ q s) fun same => own same.symm

theorem closing {l : List CloseWork} (o : CloseOrder) (s : State) (measure : .measure p ∉ l) (levels : .levels ∉ l)
    (t : State) : Around p t (closing o s l t) := by
  unfold Machine.closing
  induction l generalizing t with
  | nil => exact .refl p t
  | cons w l ih =>
    obtain ⟨measure, measures⟩ := not_or.1 (mt List.mem_cons.2 measure)
    obtain ⟨levels, others⟩ := not_or.1 (mt List.mem_cons.2 levels)
    rw [forEach_cons]
    exact (closeWork o _ (Ne.symm measure) (Ne.symm levels) t).trans (ih measures others _)

end Around

/-! ## The program's own measurement (R85, R93, R101) -/

/-- The loudness record once its silence timer has acted on M (R93). -/
def Loudness.counted (l : Loudness) (m : Int) : Loudness :=
  { l with silenceTimer := countSilence l.active m l.silenceTimer }

/-- The loudness record after the block has been measured, with the settings made active (R84 to R89, R93, R101). -/
def Loudness.measured (l : Loudness) (weights : List WeightCode) (swapping : Bool) : Loudness :=
  let b := blockLevel (blockPower weights l.accumulators)
  let m := mean (joinHistory l.history b)
  let l1 := (l.measureBlock weights swapping).zeroAccumulators
  let l2 := if swapping then l1 else l1.counted m
  { l2 with ownGain := gainLaw l2 (l2.lastVerdict == .admitted) }

/-- The loudness record after the close of one controller (R83, R85). -/
def Loudness.closed (l : Loudness) (weights : List WeightCode) (active swapping : Bool) : Loudness :=
  if active && !l.incomplete then l.activate.measured weights swapping
  else if active then ({ l.activate with incomplete := false } : Loudness).zeroAccumulators
  else l.activate

section
variable {p : ProgId} {s : State}

/-- What one controller's close leaves of its program besides its loudness record, and of its conditions besides SILENCE. -/
structure Controlled (p : ProgId) (l : Loudness) (s t : State) : Prop where
  prog : t.prog p =
    { s.prog p with
      swap := (t.prog p).swap, marks := (t.prog p).marks, returnTimer := (t.prog p).returnTimer
      returnFell := (t.prog p).returnFell, loud := l }
  swapping : (s.prog p).swapping = true → (t.prog p).swapping = true
  conds : ∀ k, k ≠ .noSource → k ≠ .silence → t.progCond p k = s.progCond p k

theorem Controlled.onRecord {g : Program → Program} {l : Loudness} (record : g (s.prog p) = { s.prog p with loud := l }) :
    Controlled p l s (s.onProg p g) := by
  refine ⟨?_, ?_, fun _ _ _ => rfl⟩
  · rw [State.onProg_eq, State.setProg_prog_self, record]
  · rw [State.onProg_eq, State.setProg_prog_self, record]; exact id

theorem Controlled.onLoud (p : ProgId) (s : State) (g : Loudness → Loudness) :
    Controlled p (g (s.prog p).loud) s (s.onProg p fun x => { x with loud := g x.loud }) := .onRecord rfl

theorem Controlled.trans {k l : Loudness} {t u : State} (h : Controlled p k s t) (g : Controlled p l t u) :
    Controlled p l s u :=
  ⟨by rw [g.prog, h.prog], fun on => g.swapping (h.swapping on), fun j a b => (g.conds j a b).trans (h.conds j a b)⟩

/-- SILENCE given a value leaves the loudness record. -/
theorem Controlled.setSilence (v : Bool) (p : ProgId) (s : State) :
    Controlled p (s.prog p).loud s (setProgCond p .silence v s) := by
  have effect := setProgCond_effect p .silence v s
  have stay := SwapsStay.setCond (progEntry p .silence) v s
  refine ⟨?_, stay.swapping p, fun k noSource silence => ?_⟩
  · have prog := effect.prog p
    rw [prog]
    rfl
  · exact (effect.cond _ fun _ => progEntry_ne noSource _ _).trans
      (State.setCondBit_cond_ne (progEntry_ne silence _ _) ..)

theorem setSilence_own (v : Bool) (p : ProgId) (s : State) : (setProgCond p .silence v s).progCond p .silence = v := by
  rw [setSilence_progCond (by decide), if_pos ⟨rfl, rfl⟩]

/-- The silence step of a close (R93): the timer, and SILENCE with it. -/
theorem silenceStep_controlled {m : Int} (formed : (s.prog p).loud.lastM = some m) :
    Controlled p (if (s.prog p).swapping then (s.prog p).loud else (s.prog p).loud.counted m) s
      (silenceStep p s) ∧
      (silenceStep p s).progCond p .silence = (if (s.prog p).swapping then s.progCond p .silence
        else if soundHeard (s.prog p).loud.active m then false
        else if countSilence (s.prog p).loud.active m (s.prog p).loud.silenceTimer = 0 then true
        else s.progCond p .silence) := by
  unfold silenceStep
  dsimp only
  cases flight : (s.prog p).swapping with
  | true => exact ⟨⟨rfl, id, fun _ _ _ => rfl⟩, rfl⟩
  | false =>
    rw [formed]
    dsimp only
    have put := Controlled.onLoud p s (·.counted m)
    have same : (s.onProg p fun x => { x with loud := { x.loud with
      silenceTimer := countSilence (s.prog p).loud.active m (s.prog p).loud.silenceTimer } }) =
        s.onProg p fun x => { x with loud := x.loud.counted m } := rfl
    have cond : (s.onProg p fun x => { x with loud := x.loud.counted m }).progCond p .silence = s.progCond p .silence := rfl
    rw [same]
    generalize (s.onProg p fun x => { x with loud := x.loud.counted m }) = t at put cond ⊢
    have given (v : Bool) := put.trans (Controlled.setSilence v p t)
    have loud : (t.prog p).loud = (s.prog p).loud.counted m := congrArg Program.loud put.prog
    rw [loud] at given
    rw [if_neg Bool.false_ne_true, if_neg Bool.false_ne_true, if_neg Bool.false_ne_true]
    split
    · exact ⟨given false, setSilence_own ..⟩
    · split
      · exact ⟨given true, setSilence_own ..⟩
      · exact ⟨put, cond⟩

/-- SILENCE once the settings have been made active (R94). -/
def silenceActivated (p : ProgId) (s : State) : Bool :=
  if (s.prog p).loud.pending.silenceTime = 0 ∧ (s.prog p).loud.active.silenceTime ≠ 0 then false else s.progCond p .silence

theorem activateSettings_prog (p : ProgId) (s : State) :
    (activateSettings p s).prog p = { s.prog p with loud := (s.prog p).loud.activate } ∧
      (activateSettings p s).progCond p .silence = silenceActivated p s ∧
      ∀ k, k ≠ .silence → (activateSettings p s).progCond p k = s.progCond p k := by
  have put : (s.onProg p fun g => { g with loud := g.loud.activate }).prog p =
      { s.prog p with loud := (s.prog p).loud.activate } := State.setProg_prog_self ..
  have conds (k : ProgCond) : (s.onProg p fun g => { g with loud := g.loud.activate }).progCond p k = s.progCond p k := rfl
  unfold activateSettings silenceActivated
  dsimp only
  generalize (s.onProg p fun g => { g with loud := g.loud.activate }) = t at put conds ⊢
  split
  · refine ⟨(setProgCond_false_prog ..).trans put, setSilence_own .., fun k other => ?_⟩
    rw [setProgCond_false_progCond, if_neg fun h => other h.2, conds]
  · exact ⟨put, conds _, fun k _ => conds k⟩

/-- The close of a block that is measured. -/
theorem closeMeasured_controlled (p : ProgId) (s : State) :
    Controlled p ((s.prog p).loud.measured (s.prog p).weights (s.prog p).swapping) s (closeMeasured p s) ∧
      (closeMeasured p s).progCond p .silence =
        let m := mean (joinHistory (s.prog p).loud.history
          (blockLevel (blockPower (s.prog p).weights (s.prog p).loud.accumulators)))
        if (s.prog p).swapping then s.progCond p .silence
        else if soundHeard (s.prog p).loud.active m then false
        else if countSilence (s.prog p).loud.active m (s.prog p).loud.silenceTimer = 0 then true
        else s.progCond p .silence := by
  have put : Controlled p ((s.prog p).loud.measureBlock (s.prog p).weights (s.prog p).swapping).zeroAccumulators s
      (s.onProg p fun g => { g with loud := (g.loud.measureBlock g.weights g.swapping).zeroAccumulators }) := .onRecord rfl
  have record : (s.onProg p fun g =>
        { g with loud := (g.loud.measureBlock g.weights g.swapping).zeroAccumulators }).prog p =
      { s.prog p with loud := ((s.prog p).loud.measureBlock (s.prog p).weights (s.prog p).swapping).zeroAccumulators } :=
    State.setProg_prog_self ..
  have cond : (s.onProg p fun g =>
      { g with loud := (g.loud.measureBlock g.weights g.swapping).zeroAccumulators }).progCond p .silence =
        s.progCond p .silence := rfl
  unfold closeMeasured
  dsimp only
  generalize (s.onProg p fun g =>
    { g with loud := (g.loud.measureBlock g.weights g.swapping).zeroAccumulators }) = t at put record cond ⊢
  have formed : (t.prog p).loud.lastM = some (mean (joinHistory (s.prog p).loud.history
      (blockLevel (blockPower (s.prog p).weights (s.prog p).loud.accumulators)))) := by rw [record]; rfl
  obtain ⟨timed, silence⟩ := silenceStep_controlled formed
  have flight : (t.prog p).swapping = (s.prog p).swapping := by rw [record]; rfl
  have loud : (t.prog p).loud = ((s.prog p).loud.measureBlock (s.prog p).weights (s.prog p).swapping).zeroAccumulators := by
    rw [record]
  rw [flight, loud] at timed silence
  rw [cond] at silence
  generalize silenceStep p t = u at timed silence ⊢
  have law := Controlled.onLoud p u fun l => { l with ownGain := gainLaw l (l.lastVerdict == .admitted) }
  have here : (u.prog p).loud = _ := congrArg Program.loud timed.prog
  rw [here] at law
  exact ⟨(put.trans timed).trans law, silence⟩

/-- The close of one controller, in full. -/
theorem closeController_controlled (p : ProgId) (s : State) :
    Controlled p ((s.prog p).loud.closed (s.prog p).weights (s.prog p).active (s.prog p).swapping) s
        (closeController p s) ∧
      (closeController p s).progCond p .silence =
        let m := mean (joinHistory (s.prog p).loud.history
          (blockLevel (blockPower (s.prog p).weights (s.prog p).loud.accumulators)))
        if formsBlock (s.prog p) = false ∨ (s.prog p).swapping = true then silenceActivated p s
        else if soundHeard (s.prog p).loud.pending m then false
        else if countSilence (s.prog p).loud.pending m (s.prog p).loud.activate.silenceTimer = 0 then true
        else silenceActivated p s := by
  obtain ⟨record, silence, conds⟩ := activateSettings_prog p s
  have flight : ((activateSettings p s).prog p).swapping = (s.prog p).swapping := by rw [record]; rfl
  have put : Controlled p (s.prog p).loud.activate s (activateSettings p s) :=
    ⟨by rw [record], by rw [flight]; exact id, fun k _ other => conds k other⟩
  unfold closeController
  dsimp only
  generalize activateSettings p s = t at *
  cases forms : formsBlock (s.prog p) with
  | true =>
    obtain ⟨measured, heard⟩ := closeMeasured_controlled p t
    have weights : (t.prog p).weights = (s.prog p).weights := by rw [record]
    have loud : (t.prog p).loud = (s.prog p).loud.activate := by rw [record]
    have closed : (s.prog p).loud.closed (s.prog p).weights (s.prog p).active (s.prog p).swapping =
        (s.prog p).loud.activate.measured (s.prog p).weights (s.prog p).swapping := if_pos forms
    rw [weights, loud, flight] at measured heard
    rw [silence] at heard
    rw [if_pos rfl, closed]
    refine ⟨put.trans measured, heard.trans ?_⟩
    cases (s.prog p).swapping
    · rfl
    · rfl
  | false =>
    rw [if_neg Bool.false_ne_true, if_pos (.inl rfl)]
    refine ⟨put.trans (.onRecord ?_), silence⟩
    have active : (t.prog p).active = (s.prog p).active := by rw [record]; rfl
    have loud : (t.prog p).loud = (s.prog p).loud.activate := by rw [record]
    have closed : (s.prog p).loud.closed (s.prog p).weights (s.prog p).active (s.prog p).swapping =
        if (s.prog p).active then ({ (s.prog p).loud.activate with incomplete := false } : Loudness).zeroAccumulators
        else (s.prog p).loud.activate := if_neg (by rw [← formsBlock, forms]; decide)
    rw [active, closed]
    split
    · rw [loud]
    · rw [← loud]

end

/-! ## The level conditions (R104, R106, R109, R110) -/

/-- A program's record once A is formed at a close (R104, R106). -/
def Program.appliedAt (g : Program) (a : Int) : Program :=
  { g with
    loud := if g.active then { g.loud with appliedGain := a, rampTarget := a, rampLeft := 4800 }
      else { g.loud with appliedGain := a } }

/-- A program's record once its levels are judged (R109). -/
def Program.levelled (g : Program) : Program :=
  if g.active then
    { g with loud := { g.loud with
      heldDown := 0
      ceilingBlocks := if 480 ≤ g.loud.heldDown then min (g.loud.ceilingBlocks + 1) 65535 else g.loud.ceilingBlocks } }
  else g

/-- OVER_LEVEL as a close judges it on M, where the block was formed (R110). -/
def overLevelAt (formed : Bool) (lastM : Option Int) (threshold a : Int) (was : Bool) : Bool :=
  if formed then
    match lastM with
      | none => was
      | some m => decide (threshold < m + a)
  else was

/-- What the level conditions of a close have made of a program. -/
structure Levelled (formed : Bool) (g : Program) (was : ProgCond → Bool) (p : ProgId) (t : State) : Prop where
  prog : t.prog p = g.levelled
  ceiling : t.progCond p .ceiling = if g.active then decide (480 ≤ g.loud.heldDown) else was .ceiling
  overLevel : t.progCond p .overLevel =
    overLevelAt (g.active && formed) g.loud.lastM g.loud.active.overThreshold g.loud.appliedGain (was .overLevel)
  others : ∀ k, k ≠ .ceiling → k ≠ .overLevel → t.progCond p k = was k

theorem judgeLevels_levelled (formed : Bool) (p : ProgId) (s : State) :
    Levelled formed (s.prog p) (s.progCond p) p (judgeLevels formed p s) := by
  unfold judgeLevels
  cases active : (s.prog p).active with
  | false =>
    rw [if_neg Bool.false_ne_true]
    exact ⟨(if_neg (by rw [active]; decide)).symm, (if_neg (by rw [active]; decide)).symm,
      (if_neg (by rw [active, Bool.false_and]; decide)).symm, fun _ _ _ => rfl⟩
  | true =>
    have prog : (judgeCeiling p s).prog p = (s.prog p).levelled := by
      unfold judgeCeiling Program.levelled
      dsimp only
      rw [setProgCond_prog (by decide), State.onProg_eq, State.setProg_prog_self, if_pos active]
      simp only [decide_eq_true_eq]
      rfl
    have conds (k : ProgCond) : (judgeCeiling p s).progCond p k =
        if k = .ceiling then decide (480 ≤ (s.prog p).loud.heldDown) else s.progCond p k := by
      unfold judgeCeiling
      dsimp only
      rw [setProgCond_progCond (by decide)]
      simp only [true_and]
      rfl
    have level : (s.prog p).levelled = _ := if_pos active
    have lastM : ((s.prog p).levelled).loud.lastM = (s.prog p).loud.lastM := by rw [level]
    have sum (m : Int) : decide (((s.prog p).levelled).loud.active.overThreshold < m + ((s.prog p).levelled).loud.appliedGain) =
        decide ((s.prog p).loud.active.overThreshold < m + (s.prog p).loud.appliedGain) := by rw [level]
    rw [if_pos rfl]
    dsimp only
    generalize judgeCeiling p s = t at *
    have quiet : Levelled false (s.prog p) (s.progCond p) p t := by
      refine ⟨prog, (conds _).trans ?_, (conds _).trans ?_, fun k a _ => (conds k).trans (if_neg a)⟩
      · rw [active]; rfl
      · rw [active]; rfl
    cases formed with
    | false => exact quiet
    | true =>
      rw [if_pos rfl]
      unfold judgeOverLevel
      dsimp only
      rw [prog, lastM]
      obtain ⟨-, ceiling, overLevel, others⟩ := quiet
      cases level : (s.prog p).loud.lastM with
      | none => exact ⟨prog, ceiling, overLevel.trans (by rw [active, level]; rfl), others⟩
      | some m =>
        dsimp only
        have given (k : ProgCond) := setProgCond_progCond (k := .overLevel) (by decide) p p
          (decide (((s.prog p).levelled).loud.active.overThreshold < m + ((s.prog p).levelled).loud.appliedGain)) k t
        refine ⟨(setProgCond_prog (by decide) ..).trans prog, (given _).trans ((if_neg (by simp)).trans ceiling),
          (given _).trans ?_,
          fun k a b => (given k).trans ((if_neg fun h => b h.2).trans (others k a b))⟩
        rw [if_pos ⟨rfl, rfl⟩, sum, active, level]
        rfl

theorem formAtClose_prog (formed : ProgId → Int) (p : ProgId) (s : State) :
    (formAtClose formed p s).prog p = (s.prog p).appliedAt (formed p) := by
  unfold formAtClose Program.appliedAt
  rw [State.onProg_eq, State.setProg_prog_self]

/-- The level conditions of a close, of every program: A formed from the gains before them. -/
theorem closeLevels_levelled (formed : ProgId → Bool) (p : ProgId) (s : State) :
    Levelled (formed p) ((s.prog p).appliedAt (appliedGainOf s p)) (s.progCond p) p (closeLevels formed s) := by
  have applied : ∀ q, (forEach allProgs (formAtClose (appliedGainOf s)) s).prog q =
        (s.prog q).appliedAt (appliedGainOf s q) := by
    refine forEach_progs (R := fun t q => t.prog q = s.prog q)
      (P := fun t q => t.prog q = (s.prog q).appliedAt (appliedGainOf s q)) (fun q t => .onProg q t _) (fun q t same => ?_)
      (fun effect other same => (effect.prog _ other).trans same) (fun effect other done => (effect.prog _ other).trans done)
      fun _ => rfl
    exact (formAtClose_prog (appliedGainOf s) q t).trans (by rw [same])
  have conds : ∀ q k, (forEach allProgs (formAtClose (appliedGainOf s)) s).progCond q k = s.progCond q k := by
    have same := forEach_proj (f := formAtClose (appliedGainOf s)) (π := State.conds) (fun _ _ => rfl) allProgs s
    exact fun q k => State.cond_congr same _
  unfold closeLevels
  generalize forEach allProgs (formAtClose (appliedGainOf s)) s = u at *
  refine forEach_progs (R := fun t q => t.prog q = u.prog q ∧ ∀ k, t.progCond q k = s.progCond q k)
    (P := fun t q => Levelled (formed q) ((s.prog q).appliedAt (appliedGainOf s q)) (s.progCond q) q t)
    (fun q t => .judgeLevels (formed q) q t) (fun q t ⟨same, kept⟩ => ?_) (fun effect other ⟨same, kept⟩ => ?_)
    (fun effect other done => ?_) (fun q => ⟨rfl, conds q⟩) p
  · have levelled := judgeLevels_levelled (formed q) q t
    rwa [same, applied, funext kept] at levelled
  · exact ⟨(effect.prog _ other).trans same, fun k => (effect.cond _ fun j h => other (progEntry_inj h).1).trans (kept k)⟩
  · obtain ⟨prog, ceiling, overLevel, others⟩ := done
    have cond (k : ProgCond) := effect.cond _ fun j (h : progEntry _ k = progEntry _ j) => other (progEntry_inj h).1
    exact ⟨(effect.prog _ other).trans prog, (cond _).trans ceiling, (cond _).trans overLevel,
      fun k a b => (cond k).trans (others k a b)⟩

end Sys2Proof.Machine
end

section
/-! PROOFS. One program through a whole block close, and the measurement, the gates and the conditions that follow. -/
namespace Sys2Proof.Machine

/-! ## A program from before a close to behind it -/

/-- The record of a program with its loudness record closed (R85). -/
def Program.closedRecord (g : Program) (flight : Bool) : Program :=
  { g with loud := g.loud.closed g.weights g.active flight }

/-- SILENCE of a program after a close at which a swap is in flight, or none (R93, R94). -/
def Program.silenceAt (g : Program) (flight was : Bool) : Bool :=
  let m := mean (joinHistory g.loud.history (blockLevel (blockPower g.weights g.loud.accumulators)))
  let now := if g.loud.pending.silenceTime = 0 ∧ g.loud.active.silenceTime ≠ 0 then false else was
  if formsBlock g = false ∨ flight = true then now
  else if soundHeard g.loud.pending m then false
  else if countSilence g.loud.pending m g.loud.activate.silenceTimer = 0 then true
  else now

/-- A program through a close, with A as formed at it and a swap in flight at its measurement or none. -/
structure ClosedAs (o : CloseOrder) (p : ProgId) (flight : Bool) (a : Int) (s t : State) : Prop where
  began : (s.prog p).swapping = true → flight = true
  first : LoudnessFirst o → flight = (s.prog p).swapping
  prog : t.prog p =
    { ((s.prog p).closedRecord flight |>.appliedAt a).levelled with
      swap := (t.prog p).swap, marks := (t.prog p).marks, returnTimer := (t.prog p).returnTimer
      returnFell := (t.prog p).returnFell }
  ceiling : t.progCond p .ceiling =
    if (s.prog p).active then decide (480 ≤ (s.prog p).loud.heldDown) else s.progCond p .ceiling
  overLevel : t.progCond p .overLevel =
    overLevelAt ((s.prog p).active && formsBlock (s.prog p)) ((s.prog p).closedRecord flight).loud.lastM
      (s.prog p).loud.pending.overThreshold a (s.progCond p .overLevel)
  silence : t.progCond p .silence = (s.prog p).silenceAt flight (s.progCond p .silence)
  alone : isMember ((s.prog p).closedRecord flight) (s.prog p).loud.pending.link = false →
    a = ((s.prog p).closedRecord flight).loud.ownGain

theorem closing_measures {p : ProgId} {l : List CloseWork} (o : CloseOrder) (s : State) (all : ∀ w ∈ l, isMeasure w = true)
    (off : .measure p ∉ l) (t : State) : (closing o s l t).prog p = t.prog p := by
  unfold closing
  induction l generalizing t with
  | nil => rfl
  | cons w l ih =>
    obtain ⟨other, off⟩ := not_or.1 (mt List.mem_cons.2 off)
    rw [forEach_cons, ih (fun w hw => all w (List.mem_cons_of_mem _ hw)) off]
    have first := all w List.mem_cons_self
    cases w with
    | measure q => exact (ProgEffect.closeController q t).prog p fun same => other (by rw [same])
    | slip f => cases first
    | levels => cases first
    | alarm e => cases first
    | returns q => cases first

theorem Loudness.closed_active (l : Loudness) (ws : List WeightCode) (on flight : Bool) :
    (l.closed ws on flight).active = l.pending := by
  unfold Loudness.closed
  split
  · unfold Loudness.measured
    cases flight <;> rfl
  · split <;> rfl

theorem Loudness.closed_heldDown (l : Loudness) (ws : List WeightCode) (on flight : Bool) :
    (l.closed ws on flight).heldDown = l.heldDown := by
  unfold Loudness.closed
  split
  · unfold Loudness.measured
    cases flight <;> rfl
  · split <;> rfl

/-- The level conditions carry what the other pieces have changed. -/
theorem Program.levelled_carries {g h : Program} (same : h = { g with
      swap := h.swap, marks := h.marks, returnTimer := h.returnTimer, returnFell := h.returnFell }) (a : Int) :
    (h.appliedAt a).levelled = { (g.appliedAt a).levelled with
      swap := h.swap, marks := h.marks, returnTimer := h.returnTimer, returnFell := h.returnFell } := by
  generalize h.swap = w at same
  generalize h.marks = m at same
  generalize h.returnTimer = n at same
  generalize h.returnFell = fell at same
  subst same
  have applied (x : Program) : (x.appliedAt a).active = x.active := rfl
  unfold Program.levelled
  rw [applied, applied]
  change (if g.active then _ else _) = _
  by_cases on : g.active = true
  · rw [if_pos on, if_pos on]; rfl
  · rw [if_neg on, if_neg on]; rfl

theorem blockClose_closedAs (o : CloseOrder) (p : ProgId) (s : State) :
    ∃ flight a, ClosedAs o p flight a s (blockClose o s) := by
  obtain ⟨c⟩ := closeWorks_course o p
  have begun : Around p s (closeBegun s) := .ofSame rfl fun _ => rfl
  have before := begun.trans (Around.closing o s c.measured.1 c.levels.1 (closeBegun s))
  have first (h : LoudnessFirst o) := closing_measures o s (c.loudness h) c.measured.1 (closeBegun s)
  have start : (closeBegun s).prog p = s.prog p := rfl
  rw [start] at first
  rw [blockClose_along c]
  generalize closing o s c.before (closeBegun s) = s1 at *
  obtain ⟨controlled, silence⟩ := closeController_controlled p s1
  generalize closeController p s1 = s2 at *
  have between := Around.closing o s c.measured.2.1 c.levels.2.1 s2
  generalize closing o s c.between s2 = s3 at *
  obtain ⟨prog, ceiling, overLevel, others⟩ := closeLevels_levelled (fun p => formsBlock (s.prog p)) p s3
  generalize closeLevels (fun p => formsBlock (s.prog p)) s3 = s4 at *
  have behind := Around.closing o s c.measured.2.2 c.levels.2.2 s4
  generalize closing o s c.behind s4 = t at *
  have loud1 : (s1.prog p).loud = (s.prog p).loud := by rw [before.prog]
  have weights1 : (s1.prog p).weights = (s.prog p).weights := by rw [before.prog]
  have active1 : (s1.prog p).active = (s.prog p).active := by rw [before.prog]; rfl
  have forms1 : formsBlock (s1.prog p) = formsBlock (s.prog p) := by rw [before.prog]; rfl
  have silence1 : s1.progCond p .silence = s.progCond p .silence := before.conds _ (by decide)
  rw [loud1, weights1, active1] at controlled
  have record3 : s3.prog p = { (s.prog p).closedRecord (s1.prog p).swapping with
      swap := (s3.prog p).swap, marks := (s3.prog p).marks, returnTimer := (s3.prog p).returnTimer
      returnFell := (s3.prog p).returnFell } := by
    rw [between.prog, controlled.prog, before.prog]; rfl
  have conds3 (k : ProgCond) (a : k ≠ .noSource) (b : k ≠ .silence) : s3.progCond p k = s.progCond p k := by
    rw [between.conds k a, controlled.conds k a b, before.conds k a]
  have active3 : ((s3.prog p).appliedAt (appliedGainOf s3 p)).active = (s.prog p).active := by
    rw [record3]; rfl
  have applied (g : Program) (a : Int) : (g.appliedAt a).loud =
      if g.active then { g.loud with appliedGain := a, rampTarget := a, rampLeft := 4800 }
      else { g.loud with appliedGain := a } := rfl
  have loud3 : (s3.prog p).loud = ((s.prog p).closedRecord (s1.prog p).swapping).loud := by rw [record3]
  have held3 : ((s3.prog p).appliedAt (appliedGainOf s3 p)).loud.heldDown = (s.prog p).loud.heldDown := by
    rw [applied, loud3]
    split <;> exact Loudness.closed_heldDown ..
  have lastM3 : ((s3.prog p).appliedAt (appliedGainOf s3 p)).loud.lastM =
      ((s.prog p).closedRecord (s1.prog p).swapping).loud.lastM := by
    rw [applied, loud3]
    split <;> rfl
  have over3 : ((s3.prog p).appliedAt (appliedGainOf s3 p)).loud.active.overThreshold = (s.prog p).loud.pending.overThreshold := by
    rw [applied, loud3]
    split <;> exact congrArg LoudSettings.overThreshold (Loudness.closed_active ..)
  have gain3 : ((s3.prog p).appliedAt (appliedGainOf s3 p)).loud.appliedGain = appliedGainOf s3 p := by
    rw [applied]
    split <;> rfl
  refine ⟨(s1.prog p).swapping, appliedGainOf s3 p, before.swapping, fun h => by rw [first h], ?_, ?_, ?_, ?_, fun off => ?_⟩
  · rw [behind.prog, prog, Program.levelled_carries record3]
  · rw [behind.conds _ (by decide), ceiling, active3, held3, conds3 _ (by decide) (by decide)]
  · rw [behind.conds _ (by decide), overLevel, active3, lastM3, over3, gain3, conds3 _ (by decide) (by decide)]
  · rw [behind.conds _ (by decide), others _ (by decide) (by decide), between.conds _ (by decide), silence]
    unfold Program.silenceAt silenceActivated
    rw [forms1, loud1, weights1, silence1]
  · have link3 : (s3.prog p).loud.active.link = (s.prog p).loud.pending.link := by
      rw [loud3]; exact congrArg LoudSettings.link (Loudness.closed_active ..)
    have member3 : isMember (s3.prog p) (s3.prog p).loud.active.link = false := by
      rw [link3, ← off, record3]; rfl
    unfold appliedGainOf
    dsimp only
    rw [member3, loud3]
    rfl

end Sys2Proof.Machine
end

section
/-! PROOFS. What a block close makes of the measurement and the conditions it judges (O40). -/
namespace Sys2Proof.Machine

/-! ## The loudness record after a close -/

theorem Program.levelled_appliedAt (g : Program) (a : Int) : ∃ target left held blocks,
    (g.appliedAt a).levelled =
      { g with loud := { g.loud with
        appliedGain := a, rampTarget := target, rampLeft := left, heldDown := held, ceilingBlocks := blocks } } ∧
    (g.active = true → target = a ∧ left = 4800 ∧ held = 0 ∧
      blocks = if 480 ≤ g.loud.heldDown then min (g.loud.ceilingBlocks + 1) 65535 else g.loud.ceilingBlocks) := by
  have applied : (g.appliedAt a).active = g.active := rfl
  unfold Program.levelled
  rw [applied]
  unfold Program.appliedAt
  cases on : g.active with
  | true => exact ⟨a, 4800, 0, _, rfl, fun _ => ⟨rfl, rfl, rfl, rfl⟩⟩
  | false => exact ⟨_, _, _, _, rfl, fun h => by cases h⟩

/-- The loudness record of a program after a close: its record closed, with A and the level counters (R85, R104, R109). -/
structure LoudnessClosed (g : Program) (flight : Bool) (a : Int) (l : Loudness) : Prop where
  carried : ∃ target left held blocks, l =
    { (g.closedRecord flight).loud with
      appliedGain := a, rampTarget := target, rampLeft := left, heldDown := held, ceilingBlocks := blocks }
  ramp : g.active = true → l.rampTarget = a ∧ l.rampLeft = 4800
  counted : g.active = true → l.heldDown = 0 ∧ l.ceilingBlocks =
    if 480 ≤ g.loud.heldDown then min (g.loud.ceilingBlocks + 1) 65535 else g.loud.ceilingBlocks

theorem Loudness.closed_ceilingBlocks (l : Loudness) (ws : List WeightCode) (on flight : Bool) :
    (l.closed ws on flight).ceilingBlocks = l.ceilingBlocks := by
  unfold Loudness.closed
  split
  · unfold Loudness.measured
    cases flight <;> rfl
  · split <;> rfl

theorem Loudness.closed_presentGain (l : Loudness) (ws : List WeightCode) (on flight : Bool) :
    (l.closed ws on flight).presentGain = l.presentGain := by
  unfold Loudness.closed
  split
  · unfold Loudness.measured
    cases flight <;> rfl
  · split <;> rfl

theorem Loudness.closed_pending (l : Loudness) (ws : List WeightCode) (on flight : Bool) :
    (l.closed ws on flight).pending = l.pending := by
  unfold Loudness.closed
  split
  · unfold Loudness.measured
    cases flight <;> rfl
  · split <;> rfl

theorem Loudness.closed_incomplete (l : Loudness) (ws : List WeightCode) (on flight : Bool) :
    (l.closed ws on flight).incomplete = (l.incomplete && !on) := by
  unfold Loudness.closed
  cases on with
  | false => exact (Bool.and_true _).symm
  | true =>
    cases whole : l.incomplete with
    | true => rfl
    | false =>
      unfold Loudness.measured
      cases flight <;> exact whole

section
variable {o : CloseOrder} {p : ProgId} {flight : Bool} {a : Int} {s t : State}

theorem ClosedAs.loud (h : ClosedAs o p flight a s t) : LoudnessClosed (s.prog p) flight a (t.prog p).loud := by
  obtain ⟨target, left, held, blocks, record, counted⟩ := ((s.prog p).closedRecord flight).levelled_appliedAt a
  have loud : (t.prog p).loud = _ := congrArg Program.loud h.prog
  rw [record] at loud
  have active : ((s.prog p).closedRecord flight).active = (s.prog p).active := rfl
  have down : ((s.prog p).closedRecord flight).loud.heldDown = (s.prog p).loud.heldDown := Loudness.closed_heldDown ..
  have hit : ((s.prog p).closedRecord flight).loud.ceilingBlocks = (s.prog p).loud.ceilingBlocks :=
    Loudness.closed_ceilingBlocks ..
  rw [active, down, hit] at counted
  refine ⟨⟨target, left, held, blocks, loud⟩, fun on => ?_, fun on => ?_⟩
  · obtain ⟨ramp, steps, -, -⟩ := counted on
    rw [loud]
    exact ⟨ramp, steps⟩
  · obtain ⟨-, -, zero, blocks⟩ := counted on
    rw [loud]
    exact ⟨zero, blocks⟩

/-- A close leaves what a program is made of. -/
theorem ClosedAs.kept (h : ClosedAs o p flight a s t) : (t.prog p).state = (s.prog p).state ∧
    (t.prog p).stack = (s.prog p).stack ∧ (t.prog p).delay = (s.prog p).delay := by
  obtain ⟨_, _, _, _, record, -⟩ := ((s.prog p).closedRecord flight).levelled_appliedAt a
  have prog := h.prog
  rw [record] at prog
  rw [prog]
  exact ⟨rfl, rfl, rfl⟩

end

/-! ## The four gates (R87 to R89) -/

theorem gatesPass_iff (l : Loudness) (m : Int) (flight : Bool) : gatesPass l m flight = true ↔
    -700 ≤ m ∧ (l.window = [] ∨ mean l.window - 100 ≤ m) ∧ flight = false ∧ l.active.mode ≠ .bypass := by
  unfold gatesPass Loudness.integrated
  cases l.window with
  | nil => simp [and_assoc]
  | cons x xs => simp [and_assoc]

section
variable (l : Loudness) (ws : List WeightCode) (flight : Bool)

/-- What the measurement of a block makes of the history and the window (R84, R86 to R89). -/
theorem Loudness.measured_measurement : let m := mean (joinHistory l.history (blockLevel (blockPower ws l.accumulators)))
    let ok := gatesPass l m flight
    (l.measured ws flight).lastB = some (blockLevel (blockPower ws l.accumulators)) ∧
      (l.measured ws flight).history = joinHistory l.history (blockLevel (blockPower ws l.accumulators)) ∧
      (l.measured ws flight).lastM = some m ∧
      (l.measured ws flight).lastVerdict = (if ok then .admitted else .notAdmitted) ∧
      (l.measured ws flight).window = if ok then joinWindow l.active.window l.window m else l.window := by
  unfold Loudness.measured
  cases flight <;> exact ⟨rfl, rfl, rfl, rfl, rfl⟩

end

/-- A block that is not measured leaves the measurement, with the window cut to the settings made active (R83, R90). -/
theorem Loudness.closed_unmeasured (l : Loudness) (ws : List WeightCode) (on flight : Bool)
    (off : (on && !l.incomplete) = false) : (l.closed ws on flight).history = l.history ∧
      (l.closed ws on flight).lastM = l.lastM ∧ (l.closed ws on flight).lastVerdict = l.lastVerdict ∧
      (l.closed ws on flight).window = lastN l.pending.window l.window := by
  unfold Loudness.closed
  rw [if_neg (by rw [off]; decide)]
  split <;> exact ⟨rfl, rfl, rfl, rfl⟩

theorem formsBlock_iff (g : Program) : formsBlock g = true ↔ Measured g := by
  unfold formsBlock Measured
  rw [Bool.and_eq_true, Bool.not_eq_true']

theorem swapping_iff (g : Program) : g.swapping = true ↔ g.swap.phase ≠ .none := by
  unfold Program.swapping
  exact bne_iff_ne

/-! ## The feeds and the unit's fields at a close -/

theorem blockClose_quiet (o : CloseOrder) (s : State) : Quiet (closeBegun s) (blockClose o s) :=
  forEach_relation .refl .trans (fun w t => Quiet.closeWork o (fun p => formsBlock (s.prog p)) w t) (closeWorks o) _

/-- Ports and converters stand, and SRC_SLIP is not made true. -/
structure SlipsOnlyEnd (s t : State) : Prop where
  port : ∀ f, (t.feed f).port = (s.feed f).port
  conv : ∀ f, (t.feed f).conv = (s.feed f).conv
  slip : ∀ f, s.feedCond f .srcSlip = false → t.feedCond f .srcSlip = false

namespace SlipsOnlyEnd
variable {s t u : State}

theorem refl (s : State) : SlipsOnlyEnd s s := ⟨fun _ => rfl, fun _ => rfl, fun _ h => h⟩

theorem trans (h : SlipsOnlyEnd s t) (g : SlipsOnlyEnd t u) : SlipsOnlyEnd s u :=
  ⟨fun f => (g.port f).trans (h.port f), fun f => (g.conv f).trans (h.conv f), fun f off => g.slip f (h.slip f off)⟩

theorem ofFeeds (h : FeedsSame s t) : SlipsOnlyEnd s t :=
  ⟨fun f => by rw [h.feed], fun f => by rw [h.feed], fun f off => (h.cond f _).trans off⟩

theorem ofAlarm (h : AlarmEffect s t) : SlipsOnlyEnd s t :=
  ⟨h.port, h.conv, fun _ off => (h.cond _ fun _ => feedEntry_ne_progEntry _ _ _ _).trans off⟩

theorem endSlip (f : FeedId) (s : State) :
    SlipsOnlyEnd s (setFeedCond f .srcSlip false s) ∧ (setFeedCond f .srcSlip false s).feedCond f .srcSlip = false := by
  have effect := SlipsOnlyEnd.ofAlarm (setFeedCond_effect f .srcSlip false s)
  have put : SlipsOnlyEnd s (s.setCondBit (feedEntry f .srcSlip) false) := by
    refine ⟨fun _ => rfl, fun _ => rfl, fun g off => ?_⟩
    by_cases same : feedEntry g .srcSlip = feedEntry f .srcSlip
    · exact (congrArg _ same).trans (State.setCondBit_cond_self ..)
    · exact (State.setCondBit_cond_ne same ..).trans off
  exact ⟨put.trans effect, effect.slip f (State.setCondBit_cond_self ..)⟩

theorem closeAlarm (apart : Bool) (e : EntryId) (s : State) : SlipsOnlyEnd s (closeAlarm apart e s) := by
  have counted : SlipsOnlyEnd s (countTimer e s) := by
    unfold countTimer
    dsimp only
    split <;> exact ⟨fun _ => rfl, fun _ => rfl, fun _ h => h⟩
  unfold Machine.closeAlarm
  dsimp only
  split
  · exact counted
  · exact (counted.trans (.ofAlarm (.expireRaise ..))).trans (.ofAlarm (.expireClear ..))

theorem closeWork (o : CloseOrder) (formed : ProgId → Bool) (w : CloseWork) (s : State) :
    SlipsOnlyEnd s (closeWork o formed w s) := by
  obtain same | ⟨f, eq⟩ | ⟨apart, e, eq⟩ := closeWork_feeds o formed w s
  · exact .ofFeeds same
  · rw [eq]; exact (endSlip f s).1
  · rw [eq]; exact closeAlarm ..

theorem closing (o : CloseOrder) (s : State) (l : List CloseWork) (t : State) : SlipsOnlyEnd t (closing o s l t) :=
  forEach_relation .refl .trans (fun w t => closeWork o _ w t) l t

end SlipsOnlyEnd

theorem blockClose_slips (o : CloseOrder) (s : State) :
    SlipsOnlyEnd s (blockClose o s) ∧ ∀ f, (blockClose o s).feedCond f .srcSlip = false := by
  have begun : SlipsOnlyEnd s (closeBegun s) := ⟨fun _ => rfl, fun _ => rfl, fun _ h => h⟩
  refine ⟨begun.trans (.closing o s (closeWorks o) _), fun f => ?_⟩
  obtain ⟨l₁, l₂, -, -, close⟩ := blockClose_at o s (.slip f)
  rw [close]
  exact (SlipsOnlyEnd.closing o s l₂ _).slip f (SlipsOnlyEnd.endSlip f _).2

/-! ## The obligation -/

section
variable {o : CloseOrder} {p : ProgId} {flight : Bool} {a : Int} {s t : State}

/-- A measured block's levels, verdict and window (R84 to R89), and OVER_LEVEL judged on them (R110). -/
theorem ClosedAs.measured (h : ClosedAs o p flight a s t) (whole : Measured (s.prog p)) :
    let l := (s.prog p).loud
    let b := blockLevel (blockPower (s.prog p).weights l.accumulators)
    let m := mean (joinHistory l.history b)
    let ok := gatesPass l.activate m flight
    (t.prog p).loud.lastB = some b ∧ (t.prog p).loud.history = joinHistory l.history b ∧ (t.prog p).loud.lastM = some m ∧
      (t.prog p).loud.lastVerdict = (if ok then .admitted else .notAdmitted) ∧
      (t.prog p).loud.window =
        (if ok then joinWindow l.pending.window (lastN l.pending.window l.window) m else lastN l.pending.window l.window) ∧
      t.progCond p .overLevel = decide (l.pending.overThreshold < m + (t.prog p).loud.appliedGain) := by
  obtain ⟨⟨_, _, _, _, loud⟩, -, -⟩ := h.loud
  have closed : ((s.prog p).closedRecord flight).loud = (s.prog p).loud.activate.measured (s.prog p).weights flight :=
    if_pos ((formsBlock_iff _).2 whole)
  obtain ⟨b, history, m, verdict, window⟩ := (s.prog p).loud.activate.measured_measurement (s.prog p).weights flight
  have judged := h.overLevel
  rw [whole.1, (formsBlock_iff _).2 whole, closed, m] at judged
  rw [loud, closed]
  exact ⟨b, history, m, verdict, window, judged⟩

theorem ClosedAs.unmeasured (h : ClosedAs o p flight a s t) (off : ¬Measured (s.prog p)) :
    (t.prog p).loud.history = (s.prog p).loud.history ∧ (t.prog p).loud.lastM = (s.prog p).loud.lastM ∧
      (t.prog p).loud.lastVerdict = (s.prog p).loud.lastVerdict ∧
      (t.prog p).loud.window = lastN (s.prog p).loud.pending.window (s.prog p).loud.window ∧
      t.progCond p .overLevel = s.progCond p .overLevel := by
  obtain ⟨⟨_, _, _, _, loud⟩, -, -⟩ := h.loud
  have forms : formsBlock (s.prog p) = false := Bool.eq_false_iff.2 (mt (formsBlock_iff _).1 off)
  obtain ⟨history, m, verdict, window⟩ := (s.prog p).loud.closed_unmeasured (s.prog p).weights _ flight forms
  have judged := h.overLevel
  rw [forms, Bool.and_false] at judged
  rw [loud]
  exact ⟨history, m, verdict, window, judged⟩

end

/-- Settles O40, by what a close makes of one program: its measurement stands between pieces that leave it, and the level
conditions behind it. -/
theorem blockCloseMeasures : Obligations.BlockCloseMeasures := by
  intro s o live
  refine ⟨judgePins (blockClose o s), onUnit_running live, ?_⟩
  have quiet := blockClose_quiet o s
  obtain ⟨reception, slips⟩ := blockClose_slips o s
  have through := fun p => blockClose_closedAs o p s
  rw [judgePins_blockCounter, judgePins_sampleInBlock, judgePins_store, judgePins_freePages]
  simp only [judgePins_prog, judgePins_feed, judgePins_progCond, judgePins_feedCond]
  generalize blockClose o s = t at *
  refine ⟨quiet.blockCounter, quiet.sampleInBlock, quiet.store, quiet.freePages,
    fun f => ⟨reception.port f, reception.conv f, slips f⟩, fun p => ?_, fun p off => ?_, fun p on => ?_, fun p whole => ?_⟩
  · obtain ⟨flight, a, closed⟩ := through p
    obtain ⟨⟨_, _, _, _, loud⟩, -, -⟩ := closed.loud
    obtain ⟨state, stack, delay⟩ := closed.kept
    rw [loud]
    exact ⟨Loudness.closed_active .., Loudness.closed_pending .., stack, delay, state, Loudness.closed_incomplete ..⟩
  · obtain ⟨flight, a, closed⟩ := through p
    exact closed.unmeasured off
  · obtain ⟨flight, a, closed⟩ := through p
    obtain ⟨held, blocks⟩ := closed.loud.counted on
    refine ⟨closed.ceiling.trans (if_pos on), held, blocks.trans ?_⟩
    simp only [decide_eq_true_eq]
  · obtain ⟨flight, a, closed⟩ := through p
    obtain ⟨b, history, m, verdict, window, judged⟩ := closed.measured whole
    have gates := gatesPass_iff (s.prog p).loud.activate
      (mean (joinHistory (s.prog p).loud.history
        (blockLevel (blockPower (s.prog p).weights (s.prog p).loud.accumulators)))) flight
    refine ⟨b, history, m, ?_, fun loudness calm level kept mode => ?_, by rw [judged, decide_eq_true_iff]; rfl⟩
    · cases ok : gatesPass (s.prog p).loud.activate
        (mean (joinHistory (s.prog p).loud.history
          (blockLevel (blockPower (s.prog p).weights (s.prog p).loud.accumulators)))) flight with
      | false =>
        rw [ok] at verdict window
        exact .inl ⟨verdict, window⟩
      | true =>
        rw [ok] at verdict window
        obtain ⟨level, kept, calm, mode⟩ := gates.1 ok
        refine .inr ⟨verdict, window, ?_, level, kept, mode⟩
        by_contra flying
        have began := closed.began ((swapping_iff _).2 flying)
        rw [calm] at began
        cases began
    · have idle : flight = false := (closed.first loudness).trans
        (Bool.eq_false_iff.2 fun on => (swapping_iff _).1 on calm)
      rw [gates.2 ⟨level, kept, idle, mode⟩] at verdict window
      exact ⟨verdict, window⟩

end Sys2Proof.Machine
end

section
/-! PROOFS. The gain at a block close: one slew step, the gain law, and A with its ramp (O38). -/
namespace Sys2Proof.Machine

/-! ## The gain law (R101, R102) -/

theorem slewGain_moves (a : LoudSettings) (g c : Int) (rise : 0 ≤ a.rise) (fall : 0 ≤ a.fall) :
    (g < c → slewGain a g c = min c (g + a.rise)) ∧ (c < g → slewGain a g c = max c (g - a.fall)) ∧
      (g = c → slewGain a g c = g) ∧ slewGain a g c ≤ g + a.rise ∧ g - a.fall ≤ slewGain a g c ∧
      ∀ lo hi, lo ≤ g → g ≤ hi → lo ≤ c → c ≤ hi → lo ≤ slewGain a g c ∧ slewGain a g c ≤ hi := by
  unfold slewGain
  obtain below | same | above := lt_trichotomy g c
  · rw [if_pos below]
    exact ⟨fun _ => rfl, fun _ => by omega, fun _ => by omega, by omega, by omega, fun _ _ _ _ _ _ => by omega⟩
  · rw [if_neg (by omega), if_neg (by omega)]
    exact ⟨fun _ => by omega, fun _ => by omega, fun _ => rfl, by omega, by omega, fun _ _ _ _ _ _ => by omega⟩
  · rw [if_neg (by omega), if_pos above]
    exact ⟨fun _ => by omega, fun _ => rfl, fun _ => by omega, by omega, by omega, fun _ _ _ _ _ _ => by omega⟩

/-- The gain law reads the active settings, G and the window. -/
theorem gainLaw_congr {k l : Loudness} (active : k.active = l.active) (gain : k.ownGain = l.ownGain)
    (window : k.window = l.window) (ok : Bool) : gainLaw k ok = gainLaw l ok := by
  unfold gainLaw Loudness.integrated
  rw [active, gain, window]

section
variable {l : Loudness} (correct : l.active.mode = .correct)
include correct

theorem gainLaw_holds : gainLaw l false = l.ownGain := by
  unfold gainLaw
  rw [if_neg (not_not.2 correct)]
  rfl

theorem gainLaw_short (short : l.window = [] ∨ l.window.length < min l.active.holdOff l.active.window) :
    gainLaw l true = l.ownGain := by
  unfold gainLaw Loudness.integrated
  rw [if_neg (not_not.2 correct), if_neg (by decide)]
  obtain empty | short := short
  · rw [empty]; rfl
  · split
    · rfl
    · exact if_pos short

theorem gainLaw_slews (held : l.window ≠ []) (long : min l.active.holdOff l.active.window ≤ l.window.length) :
    gainLaw l true = slewGain l.active l.ownGain
      (max (-l.active.cutMax) (min l.active.boostMax (l.active.target - mean l.window))) := by
  have integrated : l.integrated = some (mean l.window) := if_neg (by rw [List.isEmpty_iff]; exact held)
  unfold gainLaw
  rw [if_neg (not_not.2 correct), if_neg (by decide), integrated]
  exact if_neg (by omega)

end

/-! ## G and A at a close (R100, R101, R104, R106) -/

/-- A measured block runs the gain law on G brought within the bounds made active (R100, R101). -/
theorem Loudness.measured_ownGain (l : Loudness) (ws : List WeightCode) (flight : Bool) :
    (l.measured ws flight).ownGain =
      gainLaw { l.measured ws flight with ownGain := l.ownGain } ((l.measured ws flight).lastVerdict == .admitted) := by
  unfold Loudness.measured
  cases flight <;> exact gainLaw_congr rfl rfl rfl _

/-- A block that is not measured holds G, brought within the bounds made active (R100, R101). -/
theorem Loudness.closed_ownGain_unmeasured (l : Loudness) (ws : List WeightCode) (on flight : Bool)
    (off : (on && !l.incomplete) = false) : (l.closed ws on flight).ownGain = boundGain l.pending l.ownGain := by
  unfold Loudness.closed
  rw [if_neg (by rw [off]; decide)]
  split <;> rfl

section
variable {o : CloseOrder} {p : ProgId} {flight : Bool} {a : Int} {s t : State}

theorem ClosedAs.ownGain_measured (h : ClosedAs o p flight a s t) (whole : Measured (s.prog p)) :
    (t.prog p).loud.ownGain =
      gainLaw { (t.prog p).loud with ownGain := boundGain (s.prog p).loud.pending (s.prog p).loud.ownGain }
        ((t.prog p).loud.lastVerdict == .admitted) := by
  obtain ⟨⟨_, _, _, _, loud⟩, -, -⟩ := h.loud
  have closed : ((s.prog p).closedRecord flight).loud = (s.prog p).loud.activate.measured (s.prog p).weights flight :=
    if_pos ((formsBlock_iff _).2 whole)
  rw [loud, closed]
  refine ((s.prog p).loud.activate.measured_ownGain (s.prog p).weights flight).trans ?_
  generalize (s.prog p).loud.activate.measured (s.prog p).weights flight = k
  exact gainLaw_congr rfl rfl rfl _

theorem ClosedAs.ownGain_unmeasured (h : ClosedAs o p flight a s t) (off : ¬Measured (s.prog p)) :
    (t.prog p).loud.ownGain = boundGain (s.prog p).loud.pending (s.prog p).loud.ownGain := by
  obtain ⟨⟨_, _, _, _, loud⟩, -, -⟩ := h.loud
  have forms : formsBlock (s.prog p) = false := Bool.eq_false_iff.2 (mt (formsBlock_iff _).1 off)
  rw [loud]
  exact Loudness.closed_ownGain_unmeasured _ _ _ _ forms

/-- A of a program that is no member of a link group is its own G (R104). -/
theorem ClosedAs.alone_applies (h : ClosedAs o p flight a s t)
    (off : isMember (t.prog p) (t.prog p).loud.active.link = false) :
    (t.prog p).loud.appliedGain = (t.prog p).loud.ownGain := by
  obtain ⟨⟨_, _, _, _, loud⟩, -, -⟩ := h.loud
  obtain ⟨state, -, -⟩ := h.kept
  have active : (t.prog p).loud.active = ((s.prog p).closedRecord flight).loud.active := by rw [loud]
  have link : ((s.prog p).closedRecord flight).loud.active.link = (s.prog p).loud.pending.link :=
    congrArg LoudSettings.link (Loudness.closed_active ..)
  have member : isMember ((s.prog p).closedRecord flight) (s.prog p).loud.pending.link =
      isMember (t.prog p) (t.prog p).loud.active.link := by
    unfold isMember Program.running
    rw [active, link, state]
    rfl
  have gain := h.alone (member.trans off)
  rw [loud]
  exact gain

end

/-- Settles O38, by the cases of a slew step and of the gain law, and what a close makes of one program. -/
theorem gainMovesOneSlewStep : Obligations.GainMovesOneSlewStep := by
  refine ⟨slewGain_moves, fun s o live => ⟨judgePins (blockClose o s), onUnit_running live, fun p => ?_⟩,
    fun l correct => ⟨gainLaw_holds correct, gainLaw_short correct, gainLaw_slews correct⟩⟩
  obtain ⟨flight, a, closed⟩ := blockClose_closedAs o p s
  have linked := blockClose_linkLaw o s p
  simp only [judgePins_prog]
  generalize blockClose o s = t at *
  refine ⟨closed.ownGain_measured, closed.ownGain_unmeasured, closed.alone_applies, linked, ?_, fun on => ?_⟩
  · obtain ⟨⟨_, _, _, _, loud⟩, -, -⟩ := closed.loud
    rw [loud]
    exact Loudness.closed_presentGain ..
  · obtain ⟨⟨_, _, _, _, loud⟩, ramp, -⟩ := closed.loud
    obtain ⟨target, left⟩ := ramp on
    have applied : (t.prog p).loud.appliedGain = a := by rw [loud]
    exact ⟨target.trans applied.symm, left⟩

end Sys2Proof.Machine
end

section
/-! PROOFS. The silence timer at a close, and the silence trigger of the row SILENCE_TIMEOUT (O36). -/
namespace Sys2Proof.Machine

/-! ## The silence timer at a close (R93, R94) -/

/-- The silence timer that a change of the silence time leaves, written out. -/
theorem retimeSilence_eq (was now timer : Nat) : retimeSilence was now timer =
    if now = was then timer else if now = 0 ∨ was = 0 then now else min timer now := by
  unfold retimeSilence
  split_ifs <;> omega

theorem Loudness.measured_silenceTimer (l : Loudness) (ws : List WeightCode) (flight : Bool) :
    (l.measured ws flight).silenceTimer = if flight then l.silenceTimer else
      countSilence l.active (mean (joinHistory l.history (blockLevel (blockPower ws l.accumulators)))) l.silenceTimer := by
  unfold Loudness.measured
  cases flight <;> rfl

/-- Sound, or a silence time of 0, reloads the silence timer (R93). -/
theorem countSilence_heard {a : LoudSettings} {m : Int} {timer : Nat}
    (heard : a.silenceTime = 0 ∨ a.silenceThreshold ≤ m) :
    countSilence a m timer = a.silenceTime ∧ soundHeard a m = true := by
  unfold countSilence soundHeard
  refine ⟨?_, by simpa using heard⟩
  split
  · exact Eq.symm ‹_›
  · exact if_pos (heard.resolve_left ‹_›)

/-- Below the threshold the silence timer counts down (R93). -/
theorem countSilence_quiet {a : LoudSettings} {m : Int} {timer : Nat} (timed : a.silenceTime ≠ 0)
    (quiet : m < a.silenceThreshold) : countSilence a m timer = timer - 1 ∧ soundHeard a m = false := by
  unfold countSilence soundHeard
  refine ⟨by rw [if_neg timed, if_neg (by omega)], ?_⟩
  simpa [timed] using quiet

section
variable {o : CloseOrder} {p : ProgId} {flight : Bool} {a : Int} {s t : State}

theorem ClosedAs.silenceTimer (h : ClosedAs o p flight a s t) (whole : Measured (s.prog p)) :
    let l := (s.prog p).loud
    (t.prog p).loud.silenceTimer =
      if flight then l.activate.silenceTimer
      else countSilence l.pending
        (mean (joinHistory l.history (blockLevel (blockPower (s.prog p).weights l.accumulators)))) l.activate.silenceTimer := by
  obtain ⟨⟨_, _, _, _, loud⟩, -, -⟩ := h.loud
  have closed : ((s.prog p).closedRecord flight).loud = (s.prog p).loud.activate.measured (s.prog p).weights flight :=
    if_pos ((formsBlock_iff _).2 whole)
  rw [loud, closed]
  exact Loudness.measured_silenceTimer ..

/-- A swap in flight holds the silence timer, and SILENCE while a silence time is active (R93, R94). -/
theorem ClosedAs.silence_held (h : ClosedAs o p flight a s t) (whole : Measured (s.prog p))
    (flying : (s.prog p).swap.phase ≠ .none) :
    (t.prog p).loud.silenceTimer = (s.prog p).loud.activate.silenceTimer ∧
      ((s.prog p).loud.pending.silenceTime ≠ 0 → t.progCond p .silence = s.progCond p .silence) := by
  have began := h.began ((swapping_iff _).2 flying)
  refine ⟨(h.silenceTimer whole).trans (if_pos began), fun timed => h.silence.trans ?_⟩
  unfold Program.silenceAt
  dsimp only
  rw [if_pos (.inr began), if_neg fun off => timed off.1]

theorem ClosedAs.silence_judged (h : ClosedAs o p flight a s t) (whole : Measured (s.prog p)) (first : LoudnessFirst o)
    (calm : (s.prog p).swap.phase = .none) {m : Int} (formed : m = mean (joinHistory (s.prog p).loud.history
      (blockLevel (blockPower (s.prog p).weights (s.prog p).loud.accumulators)))) :
    let l := (s.prog p).loud
    (l.pending.silenceTime = 0 ∨ l.pending.silenceThreshold ≤ m →
      (t.prog p).loud.silenceTimer = l.pending.silenceTime ∧ t.progCond p .silence = false) ∧
    (l.pending.silenceTime ≠ 0 → m < l.pending.silenceThreshold →
      (t.prog p).loud.silenceTimer = l.activate.silenceTimer - 1 ∧
      (l.activate.silenceTimer ≤ 1 → t.progCond p .silence = true) ∧
      (2 ≤ l.activate.silenceTimer → t.progCond p .silence = s.progCond p .silence)) := by
  have still : (s.prog p).swapping = false := Bool.eq_false_iff.2 fun on => (swapping_iff _).1 on calm
  have idle : flight = false := (h.first first).trans still
  have timer := h.silenceTimer whole
  have silence := h.silence
  have forms : ¬(formsBlock (s.prog p) = false ∨ flight = true) := by
    rw [idle, (formsBlock_iff _).2 whole]; decide
  unfold Program.silenceAt at silence
  dsimp only at silence timer ⊢
  rw [if_neg forms, ← formed] at silence
  rw [if_neg (by rw [idle]; decide), ← formed] at timer
  refine ⟨fun heard => ?_, fun timed quiet => ?_⟩
  · obtain ⟨reloaded, sound⟩ := countSilence_heard (timer := (s.prog p).loud.activate.silenceTimer) heard
    exact ⟨timer.trans reloaded, silence.trans (if_pos sound)⟩
  · obtain ⟨counted, silent⟩ := countSilence_quiet (timer := (s.prog p).loud.activate.silenceTimer) timed quiet
    rw [if_neg (by rw [silent]; decide), counted] at silence
    refine ⟨timer.trans counted, fun out => silence.trans (if_pos (by omega)), fun left => silence.trans ?_⟩
    rw [if_neg (by omega), if_neg fun off => timed off.1]

end

/-! ## The raise and the release at a delay of 0 (R134) -/

theorem setCond_raises {e : EntryId} {s : State} (clear : (s.entry e).state = .clear)
    (delay : (s.entry e).config.raiseDelay = 0) (off : s.cond e = false) :
    setCond e true s = handOver e .raised (raiseEntry e (s.setCondBit e true)) := by
  unfold setCond follow conditionTrue
  rw [if_neg (by rw [off]; decide), if_pos rfl]
  dsimp only
  rw [State.setCondBit_entry, clear]
  dsimp only
  rw [if_pos delay]

theorem setCond_releases {e : EntryId} {s : State} (active : (s.entry e).state = .active)
    (delay : (s.entry e).config.clearDelay = 0) (on : s.cond e = true) :
    setCond e false s = handOver e .released (releaseEntry e (s.setCondBit e false)) := by
  unfold setCond follow conditionFalse
  rw [if_neg (by rw [on]; decide), if_neg (by decide)]
  dsimp only
  rw [State.setCondBit_entry, active]
  dsimp only
  rw [if_pos delay]

/-! ## The silence trigger (R71) -/

section
variable {s : State} {p : ProgId} {r : Rank}

theorem Program.withMark_markAt_self (g : Program) (v : Bool) : (g.withMark r v).markAt r = v :=
  Vector.getElem_set_self r.isLt

/-- A mark set on a program with no eligible set makes none eligible (R63). -/
theorem eligible_withMark (all : ∀ r', eligible s (s.prog p) r' = false) (r' : Rank) :
    eligible (s.setProg p ((s.prog p).withMark r true)) ((s.prog p).withMark r true) r' = false := by
  have healthy : rankHealthy (s.setProg p ((s.prog p).withMark r true)) ((s.prog p).withMark r true) r' =
    rankHealthy s (s.prog p) r' := rankHealthy_of_sets rfl rfl r'
  unfold eligible
  rw [healthy]
  by_cases here : r' = r
  · rw [here, Program.withMark_markAt_self, Bool.not_true, Bool.and_false]
  · rw [(s.prog p).withMark_markAt_ne here]; exact all r'

/-- The current rank of a RUNNING program with no swap in flight marked suspect: a swap begins only at the end of
NO_SOURCE (R72, R76). -/
theorem markSuspect_calm (running : (s.prog p).state = .running) :
    let u := markSuspect p (some r) s
    (u.prog p).marks = ((s.prog p).withMark r true).marks ∧ (u.prog p).stack = (s.prog p).stack ∧
      (s.progCond p .noSource = false ∨ (∀ r', eligible s (s.prog p) r' = false) → (u.prog p).swap = (s.prog p).swap) := by
  have before : (s.setProg p ((s.prog p).withMark r true)).prog p = (s.prog p).withMark r true := State.setProg_prog_self ..
  have marking : ((s.prog p).withMark r true).active = true := (Program.active_iff _).2 (.inl running)
  have active : ((s.setProg p ((s.prog p).withMark r true)).prog p).active = true := by rw [before]; exact marking
  have record := eligibilityEvent_prog active
  have same : markSuspect p (some r) s = eligibilityEvent p (s.setProg p ((s.prog p).withMark r true)) := rfl
  have cond : (s.setProg p ((s.prog p).withMark r true)).progCond p .noSource = s.progCond p .noSource := rfl
  rw [before, cond] at record
  rw [same]
  dsimp only
  have swap (h : s.progCond p .noSource = false ∨ ∀ r', eligible s (s.prog p) r' = false) :
      (((s.prog p).withMark r true).eventful (s.setProg p ((s.prog p).withMark r true)) (s.progCond p .noSource)).swap =
        (s.prog p).swap := by
    rw [eventful_swap]
    refine if_neg fun begun => ?_
    simp only [Bool.and_eq_true, Bool.not_eq_true'] at begun
    obtain ⟨⟨⟨was, now⟩, -⟩, -⟩ := begun
    obtain off | all := h
    · exact Bool.noConfusion (off.symm.trans was)
    · have lost : currentEligible (s.setProg p ((s.prog p).withMark r true)) ((s.prog p).withMark r true) = false := by
        unfold currentEligible
        split
        · rfl
        · exact eligible_withMark all _
      exact Bool.noConfusion (now.symm.trans ((noSourceTest_iff marking).2 ⟨lost, eligible_withMark all⟩))
  generalize eligibilityEvent p (s.setProg p ((s.prog p).withMark r true)) = u at *
  obtain ⟨w, n, fell, eventful⟩ := eventful_eq ((s.prog p).withMark r true)
    (s.setProg p ((s.prog p).withMark r true)) (s.progCond p .noSource)
  rw [eventful] at record swap
  rw [record]
  exact ⟨rfl, rfl, swap⟩

/-- A silence trigger of a RUNNING program with no swap in flight (R71). -/
theorem silenceTrigger_calm (running : (s.prog p).state = .running) (calm : (s.prog p).swap.phase = .none)
    (current : (s.prog p).currentRank = some r) :
    let t := silenceTrigger p s
    (t.prog p).markAt r = true ∧
      (s.progCond p .noSource = false → (t.prog p).swap =
        { phase := .fadeOut, level := (s.prog p).swap.level, cause := some .silence, origin := some r }) ∧
      (s.progCond p .noSource = true → (∀ r', eligible s (s.prog p) r' = false) → (t.prog p).swap = (s.prog p).swap) := by
  obtain ⟨marks, stack, swap⟩ := markSuspect_calm (r := r) running
  have marked : ((markSuspect p (some r) s).prog p).markAt r = true := by
    refine Eq.trans ?_ (Program.withMark_markAt_self (r := r) (s.prog p) true)
    unfold Program.markAt
    rw [marks]
  unfold silenceTrigger
  dsimp only
  rw [if_neg (by rw [(Program.running_iff _).2 running]; decide), calm, current]
  dsimp only
  generalize markSuspect p (some r) s = u at *
  have rank : (u.prog p).currentRank = some r := by
    rw [← current]; unfold Program.currentRank; rw [stack]
  cases before : s.progCond p .noSource with
  | true =>
    rw [if_pos rfl]
    exact ⟨marked, fun off => (by cases off), fun _ all => swap (.inr all)⟩
  | false =>
    rw [if_neg Bool.false_ne_true, State.onProg_eq, State.setProg_prog_self]
    refine ⟨marked, fun _ => ?_, fun on => (by cases on)⟩
    unfold Program.startFadeOut
    rw [swap (.inl before), rank]

end

/-! ## The row SILENCE_TIMEOUT (R71, R137) -/

section
variable {s : State} {p : ProgId}

/-- SILENCE becoming true with the entry's action NONE touches no program (R140). -/
theorem setSilence_inert (action : (s.entry (progEntry p .silence)).config.action = .none) :
    (setProgCond p .silence true s).progs = s.progs := by
  have kept : ((follow (progEntry p .silence) true s).1.entry (progEntry p .silence)).config.action ≠ .failover := by
    rw [(AlarmEffect.follow (progEntry p .silence) true s).config, State.setCondBit_entry, action]
    decide
  exact (congrArg State.progs (handOver_inert kept _)).trans (EntryEffect.follow ..).progs

/-- SILENCE becoming true with action FAILOVER and raise delay 0 is a silence trigger (R71, R134, R140). -/
theorem setSilence_triggers {r : Rank} (action : (s.entry (progEntry p .silence)).config.action = .failover)
    (delay : (s.entry (progEntry p .silence)).config.raiseDelay = 0)
    (clear : (s.entry (progEntry p .silence)).state = .clear) (off : s.progCond p .silence = false)
    (running : (s.prog p).state = .running) (calm : (s.prog p).swap.phase = .none)
    (current : (s.prog p).currentRank = some r) :
    let t := setProgCond p .silence true s
    (t.prog p).markAt r = true ∧
      (s.progCond p .noSource = false → (t.prog p).swap =
        { phase := .fadeOut, level := (s.prog p).swap.level, cause := some .silence, origin := some r }) ∧
      (s.progCond p .noSource = true → (∀ r', eligible s (s.prog p) r' = false) → (t.prog p).swap = (s.prog p).swap) := by
  have raised : EntryEffect (progEntry p .silence) (s.setCondBit (progEntry p .silence) true) _ :=
    .raiseEntry (progEntry p .silence) (s.setCondBit (progEntry p .silence) true)
  have trigger : setProgCond p .silence true s =
      silenceTrigger p (raiseEntry (progEntry p .silence) (s.setCondBit (progEntry p .silence) true)) := by
    refine (setCond_raises clear delay off).trans ?_
    unfold handOver
    rw [raised.config, State.setCondBit_entry, if_pos action, entrySource_progEntry]
    exact if_pos rfl
  have cond : (raiseEntry (progEntry p .silence) (s.setCondBit (progEntry p .silence) true)).progCond p .noSource =
      s.progCond p .noSource :=
    (State.cond_congr raised.conds _).trans (State.setCondBit_cond_ne (progEntry_ne (by decide) _ _) ..)
  rw [trigger]
  generalize raiseEntry (progEntry p .silence) (s.setCondBit (progEntry p .silence) true) = u at *
  have prog : u.prog p = s.prog p := State.prog_congr raised.progs p
  have ranked (r' : Rank) : eligible u (s.prog p) r' = eligible s (s.prog p) r' :=
    eligible_of_sets rfl rfl raised.feeds r'
  have done := silenceTrigger_calm (s := u) (r := r) (by rw [prog]; exact running) (by rw [prog]; exact calm)
    (by rw [prog]; exact current)
  rw [cond, prog] at done
  simpa only [ranked] using done

end

/-- Settles O36: the close by what it makes of one program, the row by what the SILENCE entry hands over. -/
theorem silenceTimeoutActs : Obligations.SilenceTimeoutActs := by
  refine ⟨fun s o p live whole => ⟨judgePins (blockClose o s), onUnit_running live, ?_, ?_⟩,
    fun s p live active calm timer timed off => ?_⟩
  · obtain ⟨flight, a, closed⟩ := blockClose_closedAs o p s
    intro flying
    obtain ⟨held, silence⟩ := closed.silence_held whole flying
    exact ⟨held.trans (retimeSilence_eq ..), silence⟩
  · obtain ⟨flight, a, closed⟩ := blockClose_closedAs o p s
    intro calm first
    have judged := closed.silence_judged whole first calm rfl
    have timer : (s.prog p).loud.activate.silenceTimer = _ := retimeSilence_eq ..
    dsimp only at judged
    rw [timer] at judged
    exact judged
  · have due : silenceIsDue s p = true := by
      have still : (s.prog p).swapping = false := Bool.eq_false_iff.2 fun on => (swapping_iff _).1 on calm
      unfold silenceIsDue
      simp [active, still, timer, timed, off]
    have effect := ProgEffect.setSilence p true s
    have record := (setProgCond_effect p .silence true s).prog p
    rw [State.setCondBit_prog] at record
    have own := setSilence_own true p s
    have inert := setSilence_inert (s := s) (p := p)
    refine ⟨judgePins (setProgCond p .silence true s), (onUnit_running live).trans (by rw [if_pos due]), rfl, own, ?_, ?_, ?_,
      effect.prog, effect.feeds, effect.quiet.store, inert, fun action delay clear running r current =>
        setSilence_triggers action delay clear off running calm current⟩
    · rw [judgePins_prog, record]
    · rw [judgePins_prog, record]
    · rw [judgePins_prog, record]

end Sys2Proof.Machine
end

section
/-! PROOFS. What the pieces of a block close leave where no alarm entry hands anything over: every alarm entry but those
they judge, the feeds, and a program but for its loudness record (R135, R140). -/
namespace Sys2Proof.Machine

/-! ## The entries that a close counts and does not judge (R131, R135) -/

/-- The entries whose conditions no piece of a close judges: those of the house reference and of the feeds, but for
SRC_SLIP. -/
def CountedOnly (e : EntryId) : Prop := e.val < 80 ∧ e.val % 5 ≠ 4 ∨ e = houseRefEntry

theorem CountedOnly.ne_prog {e : EntryId} (h : CountedOnly e) (p : ProgId) (k : ProgCond) : e ≠ progEntry p k := by
  obtain ⟨low, -⟩ | rfl := h
  · rintro rfl
    simp only [progEntry] at low
    omega
  · exact houseRef_ne p k

theorem feedEntry_slip (f : FeedId) : (feedEntry f .srcSlip).val < 80 ∧ (feedEntry f .srcSlip).val % 5 = 4 := by
  revert f; decide

theorem CountedOnly.ne_slip {e : EntryId} (h : CountedOnly e) (f : FeedId) : e ≠ feedEntry f .srcSlip := by
  rintro rfl
  obtain ⟨-, other⟩ | ref := h
  · exact other (feedEntry_slip f).2
  · exact absurd ref (by revert f; decide)

theorem EntriesKept.handOver (e : EntryId) (o : Handover) (s : State) : EntriesKept s (handOver e o s) := by
  unfold Machine.handOver
  split
  · split
    · exact .refl s
    · exact judgeHealth ..
    · split
      · exact silenceTrigger ..
      · exact .refl s
    · exact .refl s
    · exact .refl s
  · exact .refl s

theorem EntryEffect.countTimer (e : EntryId) (s : State) : EntryEffect e s (countTimer e s) := by
  unfold Machine.countTimer
  dsimp only
  split
  · exact .setEntry rfl
  · exact .setEntry rfl
  · exact .refl e s
  · exact .refl e s

/-- The level conditions leave every entry that is no program's, and every configuration. -/
theorem closeLevels_entry (formed : ProgId → Bool) {e : EntryId} (off : ∀ p k, e ≠ progEntry p k) (s : State) :
    (closeLevels formed s).entry e = s.entry e := by
  have applied := forEach_proj (f := formAtClose (appliedGainOf s)) (π := State.entries) (fun _ _ => rfl) allProgs s
  have judged := forEach_proj (f := fun p t => judgeLevels (formed p) p t) (π := fun t => t.entry e)
    (fun p t => (ProgEffect.judgeLevels (formed p) p t).entry e (off p)) allProgs
  exact (judged _).trans (State.entry_congr applied e)

theorem closeLevels_config (formed : ProgId → Bool) (e : EntryId) (s : State) :
    ((closeLevels formed s).entry e).config = (s.entry e).config := by
  have applied := forEach_proj (f := formAtClose (appliedGainOf s)) (π := State.entries) (fun _ _ => rfl) allProgs s
  have judged := forEach_proj (f := fun p t => judgeLevels (formed p) p t) (π := fun t => (t.entry e).config)
    (fun p t => (ProgEffect.judgeLevels (formed p) p t).config e) allProgs
  exact (judged _).trans (congrArg Entry.config (State.entry_congr applied e))

section
variable {e : EntryId} (kind : CountedOnly e) {s : State}
include kind

theorem handOver_counted (d : EntryId) (o : Handover) (s : State) : (handOver d o s).entry e = s.entry e :=
  (EntriesKept.handOver d o s).entry e fun p => kind.ne_prog p _

theorem closeAlarm_counted (apart : Bool) {d : EntryId} (other : d ≠ e) (s : State) :
    (closeAlarm apart d s).entry e = s.entry e := by
  have counted : (countTimer d s).entry e = s.entry e := (EntryEffect.countTimer d s).entry e other.symm
  have raised (t : State) : (expireRaise d t).entry e = t.entry e := by
    unfold expireRaise
    split
    · exact (handOver_counted kind ..).trans ((EntryEffect.raiseEntry d t).entry e other.symm)
    · rfl
  have released (t : State) : (expireClear d t).entry e = t.entry e := by
    unfold expireClear
    split
    · exact (handOver_counted kind ..).trans ((EntryEffect.releaseEntry d t).entry e other.symm)
    · rfl
  unfold closeAlarm
  dsimp only
  split
  · exact counted
  · exact (released _).trans ((raised _).trans counted)

/-- An entry that no close judges is left by every piece of it but its own. -/
theorem closeWork_counted {w : CloseWork} (o : CloseOrder) (formed : ProgId → Bool) (other : w ≠ .alarm e) (s : State) :
    (closeWork o formed w s).entry e = s.entry e := by
  have off (p : ProgId) (k : ProgCond) := kind.ne_prog p k
  cases w with
  | slip f =>
    have followed := EntryEffect.follow (feedEntry f .srcSlip) false s
    exact (handOver_counted kind ..).trans (followed.entry e (kind.ne_slip f))
  | measure p => exact (ProgEffect.closeController p s).entry e (off p)
  | levels => exact closeLevels_entry formed off s
  | alarm d => exact closeAlarm_counted kind _ (fun same => other (by rw [same])) s
  | returns p => exact (ProgEffect.closeReturn _ p s).entry e (off p)

theorem closing_counted (o : CloseOrder) (s : State) {l : List CloseWork} (off : .alarm e ∉ l) (t : State) :
    (closing o s l t).entry e = t.entry e := by
  unfold closing
  induction l generalizing t with
  | nil => rfl
  | cons w l ih =>
    obtain ⟨other, off⟩ := not_or.1 (mt List.mem_cons.2 off)
    rw [forEach_cons, ih off, closeWork_counted kind o _ (Ne.symm other)]

end

/-! ## Entries that hand nothing over (R140) -/

/-- The entries outside a set have nothing to hand over at a close. -/
structure Calm (busy : EntryId → Prop) (s : State) : Prop where
  quiet : ∀ e, ¬busy e → HandsNothing s e

section
variable {busy : EntryId → Prop} {s t : State}

/-- An entry whose timer does not run is left alone at a close (R135). -/
theorem closeAlarm_still {e : EntryId} (rest : (s.entry e).state = .clear ∨ (s.entry e).state = .active) (apart : Bool) :
    closeAlarm apart e s = s := by
  have counted : countTimer e s = s := by
    unfold countTimer
    dsimp only
    obtain rest | rest := rest <;> rw [rest]
  have raise : raiseIsDue s e = false := by
    unfold raiseIsDue
    obtain rest | rest := rest <;> rw [rest] <;> rfl
  have clear : clearIsDue s e = false := by
    unfold clearIsDue
    obtain rest | rest := rest <;> rw [rest] <;> rfl
  unfold closeAlarm
  dsimp only
  rw [counted]
  split
  · rfl
  · unfold expireRaise
    rw [raise, if_neg Bool.false_ne_true]
    unfold expireClear
    rw [clear, if_neg Bool.false_ne_true]

theorem closeAlarm_handsNothing {e : EntryId} (quiet : HandsNothing s e)
    (action : (s.entry e).config.action = .failover) (apart : Bool) : closeAlarm apart e s = s := by
  obtain ⟨-, -, rest⟩ := quiet action
  exact closeAlarm_still rest apart

theorem closeWork_config (o : CloseOrder) (formed : ProgId → Bool) (w : CloseWork) (e : EntryId) (s : State) :
    ((closeWork o formed w s).entry e).config = (s.entry e).config := by
  cases w with
  | slip f => exact (setFeedCond_effect f .srcSlip false s).config e
  | measure p => exact (ProgEffect.closeController p s).config e
  | levels => exact closeLevels_config formed e s
  | alarm d =>
    have counted : ((countTimer d s).entry e).config = (s.entry e).config := by
      by_cases own : e = d
      · subst own; exact (EntryEffect.countTimer e s).config
      · rw [(EntryEffect.countTimer d s).entry e own]
    unfold closeWork closeAlarm
    dsimp only
    split
    · exact counted
    · exact ((AlarmEffect.expireClear ..).config e).trans (((AlarmEffect.expireRaise ..).config e).trans counted)
  | returns p => exact (ProgEffect.closeReturn _ p s).config e

/-- Every piece of a close but those of the busy entries leaves the others with nothing to hand over. -/
theorem Calm.closeWork {w : CloseWork} (h : Calm busy s) (o : CloseOrder) (formed : ProgId → Bool) :
    Calm busy (closeWork o formed w s) := by
  refine ⟨fun e idle action => ?_⟩
  have before : (s.entry e).config.action = .failover := by rw [← action, closeWork_config]
  obtain ⟨low, kind, rest⟩ := h.quiet e idle before
  refine ⟨low, kind, ?_⟩
  by_cases own : w = .alarm e
  · subst own
    have same : Machine.closeWork o formed (.alarm e) s = s := closeAlarm_handsNothing (h.quiet e idle) before _
    rw [same]
    exact rest
  · rw [closeWork_counted (.inl ⟨low, kind⟩) o formed own]
    exact rest

end

/-! ## A program while nothing is handed over -/

/-- The feeds stand, and of a program only its loudness record and the mark of a return that fell due may change. -/
structure Stands (p : ProgId) (s t : State) : Prop where
  feeds : t.feeds = s.feeds
  record : ∃ l fell, t.prog p = { s.prog p with loud := l, returnFell := fell }
  noSource : t.progCond p .noSource = s.progCond p .noSource

namespace Stands
variable {p : ProgId} {s t u : State}

theorem refl (p : ProgId) (s : State) : Stands p s s := ⟨rfl, ⟨_, _, rfl⟩, rfl⟩

theorem trans (h : Stands p s t) (g : Stands p t u) : Stands p s u := by
  obtain ⟨l, fell, first⟩ := h.record
  obtain ⟨l', fell', then_⟩ := g.record
  exact ⟨g.feeds.trans h.feeds, ⟨l', fell', by rw [then_, first]⟩, g.noSource.trans h.noSource⟩

theorem ofProg {q : ProgId} (h : ProgEffect q s t) (other : p ≠ q) : Stands p s t :=
  ⟨h.feeds, ⟨_, _, by rw [h.prog p other]⟩, h.cond _ fun _ same => other (progEntry_inj same).1⟩

theorem ofEntry {e : EntryId} (h : EntryEffect e s t) : Stands p s t :=
  ⟨h.feeds, ⟨_, _, by rw [State.prog_congr h.progs p]⟩, State.cond_congr h.conds _⟩

theorem onLoud (p : ProgId) (s : State) (g : Program → Loudness) :
    Stands p s (s.onProg p fun x => { x with loud := g x }) := by
  refine ⟨rfl, ⟨g (s.prog p), (s.prog p).returnFell, ?_⟩, rfl⟩
  rw [State.onProg_eq, State.setProg_prog_self]

end Stands

/-- A condition whose entry's action is not FAILOVER only follows (R140). -/
theorem setCond_inert {e : EntryId} {s : State} (action : (s.entry e).config.action ≠ .failover) (v : Bool) :
    setCond e v s = (follow e v s).1 :=
  handOver_inert (by rw [(AlarmEffect.follow e v s).config, State.setCondBit_entry]; exact action) _

section
variable {p : ProgId} {s t u : State}

/-- SILENCE and the loudness record of a program may change, and its SILENCE entry hands nothing over. -/
structure Heard (p : ProgId) (s t : State) : Prop extends Stands p s t where
  fell : (t.prog p).returnFell = (s.prog p).returnFell
  action : (t.entry (progEntry p .silence)).config = (s.entry (progEntry p .silence)).config

namespace Heard

theorem trans (h : Heard p s t) (g : Heard p t u) : Heard p s u :=
  ⟨h.toStands.trans g.toStands, g.fell.trans h.fell, g.action.trans h.action⟩

theorem onLoud (p : ProgId) (s : State) (g : Program → Loudness) :
    Heard p s (s.onProg p fun x => { x with loud := g x }) := by
  refine ⟨.onLoud p s g, ?_, rfl⟩
  rw [State.onProg_eq, State.setProg_prog_self]

theorem setSilence (inert : (s.entry (progEntry p .silence)).config.action ≠ .failover) (v : Bool) :
    Heard p s (setProgCond p .silence v s) := by
  have effect := EntryEffect.follow (progEntry p .silence) v s
  have prog := State.prog_congr effect.progs p
  have same : setProgCond p .silence v s = (follow (progEntry p .silence) v s).1 := setCond_inert inert v
  rw [same]
  refine ⟨⟨effect.feeds, ⟨_, _, by rw [prog]; rfl⟩, ?_⟩, by rw [prog]; rfl, effect.config⟩
  exact (State.cond_congr effect.conds _).trans (State.setCondBit_cond_ne (progEntry_ne (by decide) _ _) ..)

theorem activateSettings (inert : (s.entry (progEntry p .silence)).config.action ≠ .failover) :
    Heard p s (activateSettings p s) := by
  have put := onLoud p s fun x => x.loud.activate
  unfold Machine.activateSettings
  dsimp only
  split
  · exact put.trans (setSilence (by rw [put.action]; exact inert) false)
  · exact put

theorem silenceStep (inert : (s.entry (progEntry p .silence)).config.action ≠ .failover) :
    Heard p s (silenceStep p s) := by
  have still : Heard p s s := ⟨.refl p s, rfl, rfl⟩
  unfold Machine.silenceStep
  dsimp only
  split
  · exact still
  · split
    · exact still
    · next m _ =>
      have put := onLoud p s fun x => { x.loud with
        silenceTimer := countSilence (s.prog p).loud.active m (s.prog p).loud.silenceTimer }
      have given (v : Bool) := put.trans (setSilence (by rw [put.action]; exact inert) v)
      split
      · exact given false
      · split
        · exact given true
        · exact put

theorem closeController (inert : (s.entry (progEntry p .silence)).config.action ≠ .failover) :
    Heard p s (closeController p s) := by
  have activated := activateSettings inert
  unfold Machine.closeController
  dsimp only
  generalize Machine.activateSettings p s = t at *
  split
  · have put := onLoud p t fun g => (g.loud.measureBlock g.weights g.swapping).zeroAccumulators
    have timed := silenceStep (p := p) (s := t.onProg p fun g =>
      { g with loud := (g.loud.measureBlock g.weights g.swapping).zeroAccumulators })
      (by rw [put.action, activated.action]; exact inert)
    unfold closeMeasured
    exact ((activated.trans put).trans timed).trans
      (onLoud p _ fun g => { g.loud with ownGain := gainLaw g.loud (g.loud.lastVerdict == .admitted) })
  · have discarded : Machine.closeUnmeasured p t = t.onProg p fun g => { g with loud :=
        if g.active then ({ g.loud with incomplete := false } : Loudness).zeroAccumulators else g.loud } := by
      unfold closeUnmeasured
      rw [State.onProg_eq, State.onProg_eq]
      congr 1
      split <;> rfl
    rw [discarded]
    exact activated.trans (onLoud ..)

end Heard

/-- The level conditions leave a program but for its loudness record. -/
theorem closeLevels_stands (formed : ProgId → Bool) (p : ProgId) (s : State) : Stands p s (closeLevels formed s) ∧
    ((closeLevels formed s).prog p).returnFell = (s.prog p).returnFell := by
  have levelled := closeLevels_levelled formed p s
  obtain ⟨_, _, _, _, record, -⟩ := (s.prog p).levelled_appliedAt (appliedGainOf s p)
  have prog := levelled.prog
  rw [record] at prog
  have feeds : FeedsSame s (closeLevels formed s) :=
    .forEach (fun p t h => h.prog (.judgeLevels _ p t)) _ (.forEach (fun p t h => h.onProg p _) _ (.refl s))
  exact ⟨⟨feeds.feeds, ⟨_, _, prog⟩, levelled.others _ (by decide) (by decide)⟩, by rw [prog]⟩

/-- An entry with nothing to hand over is counted, raised and released for itself. -/
theorem closeAlarm_stands {e : EntryId} (quiet : HandsNothing s e) (apart : Bool) (p : ProgId) :
    Stands p s (closeAlarm apart e s) ∧ ((closeAlarm apart e s).prog p).returnFell = (s.prog p).returnFell := by
  by_cases action : (s.entry e).config.action = .failover
  · rw [closeAlarm_handsNothing quiet action]
    exact ⟨.refl p s, rfl⟩
  · have counted := EntryEffect.countTimer e s
    have raised {t : State} (h : EntryEffect e s t) : EntryEffect e s (expireRaise e t) := by
      unfold expireRaise
      split
      · have done := h.trans (.raiseEntry e t)
        rw [handOver_inert (by rw [done.config]; exact action)]
        exact done
      · exact h
    have released {t : State} (h : EntryEffect e s t) : EntryEffect e s (expireClear e t) := by
      unfold expireClear
      split
      · have done := h.trans (.releaseEntry e t)
        rw [handOver_inert (by rw [done.config]; exact action)]
        exact done
      · exact h
    have effect : EntryEffect e s (closeAlarm apart e s) := by
      unfold closeAlarm
      dsimp only
      split
      · exact counted
      · exact released (raised counted)
    exact ⟨.ofEntry effect, by rw [State.prog_congr effect.progs p]⟩

/-- A program that makes no returns loses the mark of one at a close. -/
theorem closeReturn_idle (apart : Bool) (off : (s.prog p).autoReturn = false) : Stands p s (closeReturn apart p s) := by
  have returns : (s.prog p).returns = false := by unfold Program.returns; rw [off, Bool.and_false]; rfl
  have counted : countReturn p s = s.setProg p { s.prog p with returnFell := false } := by
    unfold countReturn
    dsimp only
    rw [returns]
    rfl
  have due : returnIsDue (s.setProg p { s.prog p with returnFell := false }) p = false := by
    unfold returnIsDue
    rw [State.setProg_prog_self]
    rfl
  have done : closeReturn apart p s = s.setProg p { s.prog p with returnFell := false } := by
    unfold closeReturn beginReturn
    rw [counted]
    dsimp only
    rw [due]
    split <;> rfl
  rw [done]
  exact ⟨rfl, ⟨_, _, State.setProg_prog_self ..⟩, rfl⟩

end

section
variable {busy : EntryId → Prop} {s : State} {p : ProgId}

/-- A piece of a close, but those of the busy entries and of the program's own return, leaves the feeds and the program. -/
theorem closeWork_stands (counted : ∀ e, busy e → CountedOnly e) (calm : Calm busy s) {w : CloseWork} (o : CloseOrder)
    (formed : ProgId → Bool) (alarms : ∀ e, busy e → w ≠ .alarm e) (returns : w ≠ .returns p) :
    Stands p s (closeWork o formed w s) ∧ ((closeWork o formed w s).prog p).returnFell = (s.prog p).returnFell := by
  have inert (e : EntryId) (idle : ¬CountedOnly e) : (s.entry e).config.action ≠ .failover := fun action => by
    obtain ⟨low, kind, -⟩ := calm.quiet e (fun h => idle (counted e h)) action
    exact idle (.inl ⟨low, kind⟩)
  cases w with
  | slip f =>
    have effect := EntryEffect.follow (feedEntry f .srcSlip) false s
    have same : closeWork o formed (.slip f) s = (follow (feedEntry f .srcSlip) false s).1 :=
      setCond_inert (inert _ fun h => h.ne_slip f rfl) false
    have prog := State.prog_congr effect.progs p
    rw [same]
    refine ⟨⟨effect.feeds, ⟨_, _, by rw [prog]; rfl⟩, ?_⟩, by rw [prog]; rfl⟩
    exact (State.cond_congr effect.conds _).trans
      (State.setCondBit_cond_ne (fun h => feedEntry_ne_progEntry _ _ _ _ h.symm) ..)
  | measure q =>
    by_cases own : p = q
    · subst own
      have heard := Heard.closeController (p := p) (inert _ fun h => h.ne_prog p .silence rfl)
      exact ⟨heard.toStands, heard.fell⟩
    · have effect := ProgEffect.closeController q s
      exact ⟨.ofProg effect own, congrArg Program.returnFell (effect.prog p own)⟩
  | levels => exact closeLevels_stands formed p s
  | alarm e => exact closeAlarm_stands (calm.quiet e fun h => alarms e h rfl) _ p
  | returns q =>
    have own : p ≠ q := fun same => returns (by rw [same])
    have effect := ProgEffect.closeReturn o.returnsApart q s
    exact ⟨.ofProg effect own, congrArg Program.returnFell (effect.prog p own)⟩

theorem closing_stands (counted : ∀ e, busy e → CountedOnly e) {l : List CloseWork} (o : CloseOrder) (c : State)
    (alarms : ∀ e, busy e → .alarm e ∉ l) (returns : .returns p ∉ l) {t : State} (calm : Calm busy t) :
    (Stands p t (closing o c l t) ∧ ((closing o c l t).prog p).returnFell = (t.prog p).returnFell) ∧
      Calm busy (closing o c l t) := by
  unfold closing
  induction l generalizing t with
  | nil => exact ⟨⟨.refl p t, rfl⟩, calm⟩
  | cons w l ih =>
    obtain ⟨other, off⟩ := not_or.1 (mt List.mem_cons.2 returns)
    have split (e : EntryId) (h : busy e) := not_or.1 (mt List.mem_cons.2 (alarms e h))
    obtain ⟨first, fell⟩ := closeWork_stands (p := p) counted calm o (fun p => formsBlock (c.prog p))
      (fun e h => Ne.symm (split e h).1) (Ne.symm other)
    obtain ⟨⟨rest, fell'⟩, still⟩ := ih (fun e h => (split e h).2) off (calm.closeWork o fun p => formsBlock (c.prog p))
    rw [forEach_cons]
    exact ⟨⟨first.trans rest, fell'.trans fell⟩, still⟩

/-- The same of a program that makes no returns, whatever its own return's piece does. -/
theorem closing_stands_idle (counted : ∀ e, busy e → CountedOnly e) {l : List CloseWork} (o : CloseOrder) (c : State)
    (alarms : ∀ e, busy e → .alarm e ∉ l) {t : State} (calm : Calm busy t) (off : (t.prog p).autoReturn = false) :
    Stands p t (closing o c l t) ∧ Calm busy (closing o c l t) := by
  unfold closing
  induction l generalizing t with
  | nil => exact ⟨.refl p t, calm⟩
  | cons w l ih =>
    have split (e : EntryId) (h : busy e) := not_or.1 (mt List.mem_cons.2 (alarms e h))
    have first : Stands p t (closeWork o (fun p => formsBlock (c.prog p)) w t) := by
      by_cases own : w = .returns p
      · subst own; exact closeReturn_idle _ off
      · exact (closeWork_stands counted calm o _ (fun e h => Ne.symm (split e h).1) own).1
    obtain ⟨l', fell, record⟩ := first.record
    obtain ⟨rest, still⟩ := ih (fun e h => (split e h).2) (calm.closeWork o fun p => formsBlock (c.prog p))
      (by rw [record]; exact off)
    rw [forEach_cons]
    exact ⟨first.trans rest, still⟩

end

end Sys2Proof.Machine
end

section
/-! PROOFS. The return timer at a close, the end of a swap, and the beginning of a return (O35). -/
namespace Sys2Proof.Machine

section
variable {s : State} {p : ProgId}

/-! ## The return timer at a close (R73, R74) -/

theorem Program.returns_iff (g : Program) :
    g.returns = true ↔ g.state = .running ∧ g.autoReturn = true ∧ 2 ≤ g.stack.length := by
  unfold Program.returns Program.running
  simp [and_assoc]

/-- A return set that is not eligible zeroes the return timer (R73). -/
theorem closeReturn_ineligible (apart : Bool) (returns : (s.prog p).returns = true)
    (off : returnEligible s (s.prog p) = false) : (closeReturn apart p s).prog p = (s.prog p).zeroReturn := by
  have counted : countReturn p s = s.onProg p Program.zeroReturn := by
    unfold countReturn
    dsimp only
    rw [if_pos returns, off]
    rfl
  have zeroed : (countReturn p s).prog p = (s.prog p).zeroReturn := by
    rw [counted, State.onProg_eq, State.setProg_prog_self]
  have due : returnIsDue (countReturn p s) p = false := by
    unfold returnIsDue
    rw [zeroed]
    rfl
  unfold closeReturn beginReturn
  dsimp only
  rw [due, if_neg Bool.false_ne_true, ite_self]
  exact zeroed

/-- The record of a program whose return timer has counted (R73), with the mark that a return fell due (log 9). -/
def Program.returnCounted (g : Program) : Program :=
  { g with
    returnTimer := min (g.returnTimer + 1) 6000
    returnFell := decide (g.returnHold ≤ min (g.returnTimer + 1) 6000) && !g.swapping }

theorem Program.returnCounted_fell (g : Program) : g.returnCounted.returnFell = true ↔
    g.returnHold ≤ min (g.returnTimer + 1) 6000 ∧ g.swap.phase = .none := by
  unfold Program.returnCounted Program.swapping
  simp

/-- An eligible return set lets the return timer count, and a return that falls due begins unless it is left to its own
event (R73, R74). -/
theorem closeReturn_eligible (apart : Bool) (returns : (s.prog p).returns = true)
    (on : returnEligible s (s.prog p) = true) : (closeReturn apart p s).prog p =
      if apart = false ∧ (s.prog p).returnCounted.returnFell = true then (s.prog p).returnCounted.startReturn
      else (s.prog p).returnCounted := by
  have counted : (countReturn p s).prog p = (s.prog p).returnCounted := by
    unfold countReturn
    dsimp only
    rw [if_pos returns, if_pos on, State.onProg_eq, State.setProg_prog_self]
    rfl
  have due : returnIsDue (countReturn p s) p = (s.prog p).returnCounted.returnFell := by
    have still : (s.prog p).returnCounted.returns = (s.prog p).returns := rfl
    have flight : (s.prog p).returnCounted.swapping = (s.prog p).swapping := rfl
    have fell : (s.prog p).returnCounted.returnFell =
      (decide ((s.prog p).returnHold ≤ min ((s.prog p).returnTimer + 1) 6000) && !(s.prog p).swapping) := rfl
    unfold returnIsDue
    rw [counted, still, flight, returns, Bool.and_true, fell, Bool.and_assoc, Bool.and_self]
  unfold closeReturn beginReturn
  dsimp only
  rw [due]
  cases apart with
  | true => rw [if_pos rfl, if_neg fun h => Bool.noConfusion h.1]; exact counted
  | false =>
    rw [if_neg Bool.false_ne_true]
    simp only [true_and]
    split
    · rw [State.onProg_eq, State.setProg_prog_self, counted]
    · exact counted

/-! ## A program through a close at which nothing is handed over (R73) -/

/-- Where no entry hands anything over, a program's swap and its return timer move at a close by its return alone. -/
theorem blockClose_returns (o : CloseOrder) (p : ProgId) (quiet : NoHandover s) : ∃ l,
    let g : Program := { s.prog p with loud := l }
    let t := blockClose o s
    (g.returns = true → returnEligible s (s.prog p) = false → (t.prog p).returnTimer = g.zeroReturn.returnTimer ∧
      (t.prog p).swap = g.zeroReturn.swap) ∧
    (g.returns = true → returnEligible s (s.prog p) = true → ∃ h,
      h = (if o.returnsApart = false ∧ g.returnCounted.returnFell = true then g.returnCounted.startReturn
        else g.returnCounted) ∧
      (t.prog p).returnTimer = h.returnTimer ∧ (t.prog p).swap = h.swap ∧ (t.prog p).returnFell = h.returnFell) := by
  obtain ⟨l₁, l₂, off₁, off₂, close⟩ := blockClose_at o s (.returns p)
  have calm : Calm (fun _ => False) (closeBegun s) := ⟨fun e _ => quiet e⟩
  obtain ⟨⟨before, fell⟩, calm₁⟩ := closing_stands (l := l₁) (p := p) (fun _ h => h.elim) o s (fun _ h => h.elim) off₁ calm
  have begun : (closeBegun s).prog p = s.prog p := rfl
  have feeds : (closeBegun s).feeds = s.feeds := rfl
  rw [close]
  generalize closing o s l₁ (closeBegun s) = s₁ at *
  obtain ⟨⟨behind, fell₂⟩, -⟩ := closing_stands (l := l₂) (p := p) (fun _ h => h.elim) o s (fun _ h => h.elim) off₂
    (calm₁.closeWork (w := .returns p) o fun p => formsBlock (s.prog p))
  have work : closeWork o (fun p => formsBlock (s.prog p)) (.returns p) s₁ = closeReturn o.returnsApart p s₁ := rfl
  rw [work] at behind fell₂ ⊢
  obtain ⟨l, _, record⟩ := before.record
  rw [record, begun] at fell
  obtain rfl := fell
  have eligible₁ : returnEligible s₁ (s₁.prog p) = returnEligible s (s.prog p) := by
    rw [record, begun]
    unfold returnEligible
    change (match (s.prog p).returnRank with | none => false | some r => _) = _
    cases (s.prog p).returnRank with
    | none => rfl
    | some r => exact eligible_of_sets rfl rfl (before.feeds.trans feeds) r
  have g₁ : s₁.prog p = { s.prog p with loud := l } := record
  have ineligible := closeReturn_ineligible (s := s₁) (p := p) o.returnsApart
  have counts := closeReturn_eligible (s := s₁) (p := p) o.returnsApart
  rw [eligible₁, g₁] at ineligible counts
  generalize closeReturn o.returnsApart p s₁ = s₂ at *
  generalize closing o s l₂ s₂ = t at *
  obtain ⟨_, _, last⟩ := behind.record
  refine ⟨l, fun returns off => ?_, fun returns on => ⟨_, rfl, ?_⟩⟩
  · rw [last, ineligible returns off]
    exact ⟨rfl, rfl⟩
  · rw [fell₂, last, counts returns on]
    exact ⟨rfl, rfl, rfl⟩

/-! ## The end of a swap, and a return that is due (R69, R74) -/

theorem exec_swapEnd (live : s.inReset = false) (fading : (s.prog p).swap.phase = .fadeIn)
    (full : (s.prog p).swap.level = 480) :
    exec (.swapEnd p) s = .next (judgePins (s.setProg p (s.prog p).endSwap)) := by
  have due : swapEndIsDue s p = true := by
    unfold swapEndIsDue
    rw [fading, full]
    rfl
  exact (onUnit_running live).trans (by rw [if_pos due, State.onProg_eq])

/-- A swap at its full level leaves the record of no swap (R69). -/
theorem Program.endSwap_eq {g : Program} (full : g.swap.level = 480) : g.endSwap =
    if g.returns = true ∧ g.returnHold ≤ g.returnTimer then ({ g with swap := {} } : Program).startReturn
    else { g with swap := {} } := by
  have ended : ({ g with swap := { level := g.swap.level } } : Program) = { g with swap := {} } := by rw [full]
  have cut (h : Program) : (if h.returns && decide (h.returnHold ≤ h.returnTimer) then h.startReturn else h) =
      if h.returns = true ∧ h.returnHold ≤ h.returnTimer then h.startReturn else h := by
    simp only [Bool.and_eq_true, decide_eq_true_eq]
  exact (cut { g with swap := { level := g.swap.level } }).trans (by rw [ended]; rfl)

theorem exec_returnDue (live : s.inReset = false) (calm : (s.prog p).swap.phase = .none)
    (fell : (s.prog p).returnFell = true) (returns : (s.prog p).returns = true) :
    exec (.returnDue p) s = .next (judgePins (s.setProg p (s.prog p).startReturn)) := by
  have still : (s.prog p).swapping = false := Bool.eq_false_iff.2 fun on => (swapping_iff _).1 on calm
  have due : returnIsDue s p = true := by
    unfold returnIsDue
    rw [fell, returns, still]
    rfl
  refine (onUnit_running live).trans ?_
  unfold beginReturn
  rw [if_pos due, State.onProg_eq]

end

/-- Settles O35: the close by the return's own piece of it, the events on the record. -/
theorem swapEndAndReturn : Obligations.SwapEndAndReturn := by
  refine ⟨fun s o p live quiet running auto ranks => ⟨judgePins (blockClose o s), onUnit_running live, ?_, ?_⟩,
    fun s p live running => ⟨fun fading full off => ?_, fun ⟨fading, full⟩ auto ranks hold => ?_,
      fun calm fell auto ranks => ?_⟩⟩
  · obtain ⟨l, ineligible, -⟩ := blockClose_returns o p quiet
    have returns := (Program.returns_iff { s.prog p with loud := l }).2 ⟨running, auto, ranks⟩
    exact ineligible returns
  · obtain ⟨l, -, counts⟩ := blockClose_returns o p quiet
    have returns := (Program.returns_iff { s.prog p with loud := l }).2 ⟨running, auto, ranks⟩
    intro eligible
    obtain ⟨h, record, timer, swap, fell⟩ := counts returns eligible
    have fallen : ({ s.prog p with loud := l } : Program).returnCounted.returnFell = true ↔
        (s.prog p).returnHold ≤ min ((s.prog p).returnTimer + 1) 6000 ∧ (s.prog p).swap.phase = .none :=
      Program.returnCounted_fell _
    rw [judgePins_prog, timer, swap, fell]
    refine ⟨fun waits => ?_, fun due calm apart => ?_, fun due calm together => ?_⟩
    · have waiting := mt fallen.1 fun ⟨hold, calm⟩ => waits.elim (Nat.not_lt.2 hold) fun flying => flying calm
      rw [record, if_neg fun h => waiting h.2]
      exact ⟨rfl, rfl⟩
    · rw [record, apart, if_neg fun h => Bool.noConfusion h.1]
      exact ⟨rfl, rfl, fallen.2 ⟨due, calm⟩⟩
    · rw [record, if_pos ⟨together, fallen.2 ⟨due, calm⟩⟩]
      exact ⟨rfl, rfl⟩
  · rw [exec_swapEnd live fading full, Program.endSwap_eq full, if_neg fun h => ?_]
    obtain ⟨returns, hold⟩ := h
    obtain ⟨-, auto, ranks⟩ := (Program.returns_iff _).1 returns
    obtain off | short | early := off
    · exact Bool.noConfusion (off.symm.trans auto)
    · omega
    · omega
  · have returns := (Program.returns_iff (s.prog p)).2 ⟨running, auto, ranks⟩
    rw [exec_swapEnd live fading full, Program.endSwap_eq full, if_pos ⟨returns, hold⟩]
    rfl
  · rw [exec_returnDue live calm fell ((Program.returns_iff _).2 ⟨running, auto, ranks⟩)]
    rfl

end Sys2Proof.Machine
end

section
/-! PROOFS. The raise and the release of an alarm entry at its expiry and at a delay of 0 (R134, R135, R137, R138). -/
namespace Sys2Proof.Machine

/-! ## An entry raised or released, with what it hands over acted on (R137, R138, R140) -/

/-- What an entry's raise or release is to the rest of the unit, with what it hands over acted on. -/
structure Acted (e : EntryId) (n : NoticeKind) (x : Entry) (s t : State) : Prop where
  entry : t.entry e = x
  effect : AlarmEffect s t
  reported : x.config.severity ≠ .off → Reported n (entrySource e)
    [BitVec.ofNat 8 e.val, BitVec.ofNat 8 x.config.severity.code, BitVec.ofNat 8 x.raiseCount] s t
  silent : x.config.severity = .off → x.config.action = .none → t.notices = s.notices ∧ t.missed = s.missed
  alone : x.config.action = .none → t.feeds = s.feeds ∧ t.progs = s.progs ∧ OtherEntriesKept e s t

section
variable {e : EntryId} {s : State}

theorem raise_acted (e : EntryId) (s : State) :
    Acted e .alarmRaised ((s.entry e).raised s.blockCounter) s (handOver e .raised (raiseEntry e s)) := by
  have entry : (raiseEntry e s).entry e = (s.entry e).raised s.blockCounter := by rw [raiseEntry_entry, if_pos rfl]
  have inert (action : (s.entry e).config.action = .none) : handOver e .raised (raiseEntry e s) = raiseEntry e s :=
    handOver_inert (by rw [entry]; exact fun failover => by cases action.symm.trans failover) _
  have effect : EntryEffect e s (raiseEntry e s) := .raiseEntry ..
  refine ⟨(handOver_entry_self ..).trans entry, (AlarmEffect.raiseEntry e s).trans (.handOver ..), fun loud => ?_,
    fun silent action => ?_, fun action => ?_⟩
  · exact .congr (.refl s) rfl (raiseEntry_reported loud) (handOver_grows ..)
  · rw [inert action]; exact raiseEntry_silent silent
  · rw [inert action]; exact ⟨effect.feeds, effect.progs, effect.entry⟩

theorem release_acted (e : EntryId) (s : State) :
    Acted e .alarmCleared (s.entry e).cleared s (handOver e .released (releaseEntry e s)) := by
  have entry : (releaseEntry e s).entry e = (s.entry e).cleared := by rw [releaseEntry_entry, if_pos rfl]
  have inert (action : (s.entry e).config.action = .none) : handOver e .released (releaseEntry e s) = releaseEntry e s :=
    handOver_inert (by rw [entry]; exact fun failover => by cases action.symm.trans failover) _
  have effect : EntryEffect e s (releaseEntry e s) := .releaseEntry ..
  refine ⟨(handOver_entry_self ..).trans entry, (AlarmEffect.releaseEntry e s).trans (.handOver ..), fun loud => ?_,
    fun silent action => ?_, fun action => ?_⟩
  · exact .congr (.refl s) rfl (releaseEntry_reported loud) (handOver_grows ..)
  · rw [inert action]; exact releaseEntry_silent silent
  · rw [inert action]; exact ⟨effect.feeds, effect.progs, effect.entry⟩

theorem Entry.raised_silent {x : Entry} (silent : x.config.severity = .off) (now : BitVec 32) :
    (x.raised now).latched = x.latched := if_pos silent

/-! ## At the expiry of its timer (R135) -/

theorem exec_raiseExpiry (live : s.inReset = false) (rising : (s.entry e).state = .rising) (timer : (s.entry e).timer = 0) :
    exec (.alarmRaiseDelayExpiry e) s = .next (judgePins (handOver e .raised (raiseEntry e s))) := by
  have due : raiseIsDue s e = true := by simp [raiseIsDue, rising, timer]
  refine (onUnit_running live).trans ?_
  rw [expireRaise, if_pos due]

theorem exec_clearExpiry (live : s.inReset = false) (falling : (s.entry e).state = .falling)
    (timer : (s.entry e).timer = 0) :
    exec (.alarmClearDelayExpiry e) s = .next (judgePins (handOver e .released (releaseEntry e s))) := by
  have due : clearIsDue s e = true := by simp [clearIsDue, falling, timer]
  refine (onUnit_running live).trans ?_
  rw [expireClear, if_pos due]

/-! ## At a delay of 0 (R134) -/

/-- A feed condition given a value moves nothing by itself. -/
theorem Unmoved.setCondBit (f : FeedId) (k : FeedCond) (v : Bool) (s : State) :
    Unmoved s (s.setCondBit (feedEntry f k) v) :=
  .ofProgs rfl (fun _ => rfl)
    (fun _ => State.setCondBit_cond_ne (fun h => feedEntry_ne_progEntry _ _ _ _ h.symm) ..)
    fun _ => State.setCondBit_cond_ne (fun h => feedEntry_ne_progEntry _ _ _ _ h.symm) ..

theorem setCond_acted_raised (clear : (s.entry e).state = .clear) (delay : (s.entry e).config.raiseDelay = 0)
    (off : s.cond e = false) :
    Acted e .alarmRaised ((s.entry e).raised s.blockCounter) (s.setCondBit e true) (setCond e true s) := by
  rw [setCond_raises clear delay off]
  exact raise_acted e (s.setCondBit e true)

theorem setCond_acted_released (active : (s.entry e).state = .active) (delay : (s.entry e).config.clearDelay = 0)
    (on : s.cond e = true) :
    Acted e .alarmCleared (s.entry e).cleared (s.setCondBit e false) (setCond e false s) := by
  rw [setCond_releases active delay on]
  exact release_acted e (s.setCondBit e false)

theorem setCond_lost {f : FeedId} {k : FeedCond} (own : e = feedEntry f k) (clear : (s.entry e).state = .clear)
    (delay : (s.entry e).config.raiseDelay = 0) (off : s.cond e = false) (action : (s.entry e).config.action = .failover) :
    HealthLost f s (setCond e true s) ∧ OtherFeedsKept f s (setCond e true s) := by
  rw [setCond_raises clear delay off]
  subst own
  obtain ⟨health, others, -⟩ := raise_lost (f := f) (k := k) (Unmoved.setCondBit f k true s) rfl action
  exact ⟨health, others⟩

theorem setCond_gained {f : FeedId} {k : FeedCond} (own : e = feedEntry f k) (active : (s.entry e).state = .active)
    (delay : (s.entry e).config.clearDelay = 0) (on : s.cond e = true) (action : (s.entry e).config.action = .failover)
    (ill : (s.feed f).healthy = false) (enabled : (s.feed f).port.enable = true)
    (last : ∀ k', k' ≠ k → ¬HoldsUnhealthy (s.entry (feedEntry f k'))) :
    HealthGained f s (setCond e false s) ∧ OtherFeedsKept f s (setCond e false s) := by
  rw [setCond_releases active delay on]
  subst own
  exact release_gained (f := f) (k := k) (Unmoved.setCondBit f k false s) rfl (fun _ => rfl) action ill enabled last

end

end Sys2Proof.Machine
end

section
/-! PROOFS. An alarm entry through a block close, and the obligation of the alarm timers (O50). -/
namespace Sys2Proof.Machine

/-! ## The timer of one entry at a close (R135) -/

/-- An entry's record with its timer counted. -/
def Entry.counted (x : Entry) : Entry := { x with timer := x.timer - 1 }

section
variable {e : EntryId} {s : State}

theorem countTimer_runs (runs : (s.entry e).state = .rising ∨ (s.entry e).state = .falling) :
    countTimer e s = s.setEntry e (s.entry e).counted := by
  have running (rest : (s.entry e).state = .clear ∨ (s.entry e).state = .active) :
      s = s.setEntry e (s.entry e).counted := by
    obtain runs | runs := runs <;> rw [runs] at rest <;> obtain rest | rest := rest <;> cases rest
  unfold countTimer
  dsimp only
  split
  · rfl
  · rfl
  · exact running (.inl ‹_›)
  · exact running (.inr ‹_›)

/-- A timer that has not run out, or whose end is left to its own event, only counts. -/
theorem closeAlarm_counts {apart : Bool} (runs : (s.entry e).state = .rising ∨ (s.entry e).state = .falling)
    (left : 2 ≤ (s.entry e).timer ∨ apart = true) : closeAlarm apart e s = s.setEntry e (s.entry e).counted := by
  have counted := countTimer_runs runs
  unfold closeAlarm
  dsimp only
  rw [counted]
  split
  · rfl
  · next together =>
    have more : ((s.entry e).counted.timer == 0) = false := by
      have : 2 ≤ (s.entry e).timer := left.resolve_right together
      unfold Entry.counted
      simp only [beq_eq_false_iff_ne]
      omega
    have raise : raiseIsDue (s.setEntry e (s.entry e).counted) e = false := by
      unfold raiseIsDue
      rw [State.setEntry_entry_self, more, Bool.and_false]
    have clear : clearIsDue (s.setEntry e (s.entry e).counted) e = false := by
      unfold clearIsDue
      rw [State.setEntry_entry_self, more, Bool.and_false]
    unfold expireRaise
    rw [raise, if_neg Bool.false_ne_true]
    unfold expireClear
    rw [clear, if_neg Bool.false_ne_true]

/-- A timer that runs out in RISING raises its entry at the close. -/
theorem closeAlarm_raises (rising : (s.entry e).state = .rising) (out : (s.entry e).timer ≤ 1) :
    closeAlarm false e s = handOver e .raised (raiseEntry e (s.setEntry e (s.entry e).counted)) := by
  have zero : ((s.entry e).counted.timer == 0) = true := by
    unfold Entry.counted
    simp only [beq_iff_eq]
    omega
  have due : raiseIsDue (s.setEntry e (s.entry e).counted) e = true := by
    unfold raiseIsDue
    rw [State.setEntry_entry_self, zero, Bool.and_true]
    exact beq_iff_eq.2 rising
  have active := (raise_acted e (s.setEntry e (s.entry e).counted)).entry
  unfold closeAlarm expireRaise
  rw [countTimer_runs (.inl rising), if_neg Bool.false_ne_true, if_pos due]
  generalize handOver e .raised (raiseEntry e (s.setEntry e (s.entry e).counted)) = t at active ⊢
  have done : clearIsDue t e = false := by
    unfold clearIsDue
    rw [active]
    rfl
  unfold expireClear
  rw [done, if_neg Bool.false_ne_true]

/-- A timer that runs out in FALLING releases its entry at the close. -/
theorem closeAlarm_releases (falling : (s.entry e).state = .falling) (out : (s.entry e).timer ≤ 1) :
    closeAlarm false e s = handOver e .released (releaseEntry e (s.setEntry e (s.entry e).counted)) := by
  have zero : ((s.entry e).counted.timer == 0) = true := by
    unfold Entry.counted
    simp only [beq_iff_eq]
    omega
  have raise : raiseIsDue (s.setEntry e (s.entry e).counted) e = false := by
    unfold raiseIsDue
    rw [State.setEntry_entry_self, show (s.entry e).counted.state = .falling from falling]
    rfl
  have due : clearIsDue (s.setEntry e (s.entry e).counted) e = true := by
    unfold clearIsDue
    rw [State.setEntry_entry_self, zero, Bool.and_true]
    exact beq_iff_eq.2 falling
  unfold closeAlarm expireRaise
  rw [countTimer_runs (.inr falling), if_neg Bool.false_ne_true, raise, if_neg Bool.false_ne_true]
  unfold expireClear
  rw [if_pos due]

end

/-! ## One entry through a whole close -/

theorem closing_grows (o : CloseOrder) (s : State) (l : List CloseWork) (t : State) : Grows t (closing o s l t) :=
  (AlarmSteps.forEach (fun w _ h => h.closeWork o _ w) l (AlarmSteps.refl (s := t))).grows

theorem closing_quiet (o : CloseOrder) (s : State) (l : List CloseWork) (t : State) : Quiet t (closing o s l t) :=
  forEach_relation .refl .trans (fun w t => Quiet.closeWork o (fun p => formsBlock (s.prog p)) w t) l t

theorem HealthOn.closing {Q : FeedId → Prop} {t : State} (law : HealthOn Q t) (o : CloseOrder) (s : State)
    (l : List CloseWork) : HealthOn Q (closing o s l t) := by
  refine forEach_induction (P := HealthOn Q) (fun w t law => ?_) l t law
  obtain same | ⟨f, eq⟩ | ⟨apart, e, eq⟩ := closeWork_feeds o (fun p => formsBlock (s.prog p)) w t
  · exact same.healthOn law
  · rw [eq]; exact law.setCond _ _
  · rw [eq]; exact law.closeAlarm apart e

/-- The close of one entry's timer: the state in which its piece of the work is done, what that leaves of the entry, and
what the pieces before it and behind it leave of the notices, the feed and the programs. -/
structure AlarmCourse (o : CloseOrder) (e : EntryId) (s u t : State) : Prop where
  entry : u.entry e = s.entry e
  counter : u.blockCounter = s.blockCounter + 1
  before : Grows s u
  left : t.entry e = (closeAlarm o.expiriesApart e u).entry e
  behind : Grows (closeAlarm o.expiriesApart e u) t
  held : ∀ f k, e = feedEntry f k → HealthAt (closeAlarm o.expiriesApart e u) f → HealthAt t f
  stands : (∀ e', e' ≠ e → HandsNothing s e') → ∀ p, (s.prog p).autoReturn = false → Stands p s u ∧
    ((closeAlarm o.expiriesApart e u).prog p).autoReturn = false ∧
    (t.prog p).swap = ((closeAlarm o.expiriesApart e u).prog p).swap

theorem blockClose_alarmCourse {e : EntryId} (kind : CountedOnly e) (o : CloseOrder) (s : State) :
    ∃ u, AlarmCourse o e s u (blockClose o s) := by
  obtain ⟨l₁, l₂, off₁, off₂, close⟩ := blockClose_at o s (.alarm e)
  have entry := closing_counted kind o s off₁ (closeBegun s)
  have quiet := closing_quiet o s l₁ (closeBegun s)
  have grows : Grows s (closing o s l₁ (closeBegun s)) :=
    (Grows.same (s := s) (t := closeBegun s) rfl rfl).trans (closing_grows ..)
  have work (u : State) : closeWork o (fun p => formsBlock (s.prog p)) (.alarm e) u = closeAlarm o.expiriesApart e u := rfl
  have counts (d : EntryId) (h : d = e) : CountedOnly d := h ▸ kind
  have stands (quiet : ∀ e', e' ≠ e → HandsNothing s e') (p : ProgId) (auto : (s.prog p).autoReturn = false) :=
    closing_stands_idle (busy := (· = e)) (l := l₁) (p := p) counts o s (fun d h => h ▸ off₁) (t := closeBegun s)
      ⟨fun d h => quiet d h⟩ auto
  rw [close, work]
  generalize closing o s l₁ (closeBegun s) = u at *
  refine ⟨u, entry, quiet.blockCounter, grows, closing_counted kind o s off₂ _, closing_grows .., fun f k own at_ => ?_,
    fun idle p auto => ?_⟩
  · exact HealthOn.closing (Q := (· = f)) (fun g h => h ▸ at_) o s l₂ f rfl
  · obtain ⟨first, calm⟩ := stands idle p auto
    have after : Calm (· = e) (closeAlarm o.expiriesApart e u) :=
      calm.closeWork (w := .alarm e) o fun p => formsBlock (s.prog p)
    have kept : ((closeAlarm o.expiriesApart e u).prog p).autoReturn = false := by
      obtain ⟨l, fell, record⟩ := first.record
      have around := Around.closeWork (w := .alarm e) (p := p) o (fun p => formsBlock (s.prog p))
        (by simp) (by simp) u
      rw [work] at around
      rw [around.prog, record]
      exact auto
    obtain ⟨last, -⟩ := closing_stands_idle (l := l₂) (p := p) counts o s (fun d h => h ▸ off₂) after kept
    obtain ⟨l, fell, record⟩ := last.record
    have begun : Stands p s (closeBegun s) := ⟨rfl, ⟨_, _, rfl⟩, rfl⟩
    exact ⟨begun.trans first, kept, by rw [record]⟩

section
variable {o : CloseOrder} {e : EntryId} {s u t : State}

/-- The state in which an entry's timer has just counted at a close. -/
def State.timed (u : State) (e : EntryId) : State := u.setEntry e (u.entry e).counted

theorem State.timed_entry (u : State) (e : EntryId) : (u.timed e).entry e = (u.entry e).counted :=
  State.setEntry_entry_self ..

/-- An entry raised or released at its own piece of a close stands so behind it, with its notice (R135). -/
theorem AlarmCourse.acted (h : AlarmCourse o e s u t) {n : NoticeKind} {x : Entry}
    (done : Acted e n x (u.timed e) (closeAlarm o.expiriesApart e u)) : t.entry e = x ∧
      (x.config.severity ≠ .off → Reported n (entrySource e)
        [BitVec.ofNat 8 e.val, BitVec.ofNat 8 x.config.severity.code, BitVec.ofNat 8 x.raiseCount]
        { s with blockCounter := s.blockCounter + 1 } t) := by
  refine ⟨h.left.trans done.entry, fun loud => ?_⟩
  have before : Grows { s with blockCounter := s.blockCounter + 1 } (u.timed e) :=
    ((Grows.same (s := { s with blockCounter := s.blockCounter + 1 }) (t := s) rfl rfl).trans h.before).trans
      (.same rfl rfl)
  exact .congr before h.counter (done.reported loud) h.behind

/-- A feed entry with action FAILOVER raised at a close leaves its feed unhealthy behind it (R62). -/
theorem AlarmCourse.lost (h : AlarmCourse o e s u t) {f : FeedId} {k : FeedCond} (own : e = feedEntry f k)
    (action : (s.entry e).config.action = .failover)
    (raised : closeAlarm o.expiriesApart e u = handOver e .raised (raiseEntry e (u.timed e))) :
    HealthLost f u (closeAlarm o.expiriesApart e u) ∧ (t.feed f).healthy = false := by
  have before : ((u.timed e).entry e).config.action = .failover := by
    rw [State.timed_entry, h.entry]; exact action
  have unmoved : Unmoved u (u.timed e) := EntryEffect.unmoved (.setEntry (e := e) rfl)
  have entry : (closeAlarm o.expiriesApart e u).entry e = ((u.timed e).entry e).raised (u.timed e).blockCounter := by
    rw [raised]; exact (raise_acted e (u.timed e)).entry
  have held := h.held f k own
  have left := h.left
  have lost : HealthLost f u (closeAlarm o.expiriesApart e u) := by
    rw [raised]
    subst own
    exact (raise_lost unmoved rfl before).1
  generalize closeAlarm o.expiriesApart e u = v at *
  have down {w : State} (same : w.entry e = v.entry e) : healthTest w f = false := by
    refine healthTest_down (j := k) ?_
    rw [← own, same, entry]
    simp [Entry.down, Entry.raised, before]
  have ⟨ill, _⟩ := lost
  exact ⟨lost, (held (ill.trans (down rfl).symm)).trans (down left)⟩

/-- The raise of one entry at a close at which no other hands anything over begins the failover swaps of its feed, of
programs that make no returns (R70). -/
theorem AlarmCourse.triggers (h : AlarmCourse o e s u t) {f : FeedId}
    (lost : HealthLost f u (closeAlarm o.expiriesApart e u)) (healthy : (s.feed f).healthy = true)
    (quiet : ∀ e', e' ≠ e → HandsNothing s e') {p : ProgId} (running : (s.prog p).state = .running)
    (names : Names (s.prog p).currentSet f) (sourced : s.progCond p .noSource = false)
    (auto : (s.prog p).autoReturn = false) : (t.prog p).swap = failoverSwap (s.prog p) := by
  obtain ⟨stands, -, swap⟩ := h.stands quiet p auto
  obtain ⟨l, fell, record⟩ := stands.record
  obtain ⟨-, -, lost⟩ := lost
  obtain ⟨-, triggered⟩ := lost (by rw [State.feed_congr stands.feeds]; exact healthy)
  obtain ⟨begins, -⟩ := triggered p
  rw [record, stands.noSource] at begins
  exact swap.trans (begins running names sourced)

end

/-- Settles O50: the expiries and the delays of 0 by what a raise or a release does, the close by the entry's own piece
of it. -/
theorem alarmTimersExpire : Obligations.AlarmTimersExpire := by
  refine ⟨fun s e live timer => ⟨fun rising => ?_, fun falling => ?_⟩, fun s o e live kind => ?_,
    fun s e => ⟨fun clear delay off => ?_, fun active delay on => ?_⟩⟩
  · have lost (f : FeedId) (k : FeedCond) (own : e = feedEntry f k) (action : (s.entry e).config.action = .failover) :
        HealthLost f s (handOver e .raised (raiseEntry e s)) ∧ OtherFeedsKept f s (handOver e .raised (raiseEntry e s)) ∧
          ((s.feed f).healthy = false → (handOver e .raised (raiseEntry e s)).progs = s.progs) := by
      subst own
      exact raise_lost (.refl s) rfl action
    obtain ⟨entry, effect, reported, silent, alone⟩ := raise_acted e s
    refine ⟨_, exec_raiseExpiry live rising timer, ?_⟩
    generalize handOver e .raised (raiseEntry e s) = t at *
    have runs : RunsKept s (judgePins t) := effect.runsKept
    rw [judgePins_entry, entry]
    refine ⟨rfl, rfl, rfl, rfl, fun loud => ⟨if_neg loud, if_neg loud, reported loud⟩,
      fun off => ⟨Entry.raised_silent off _, silent off⟩, effect.cond, effect.quiet.store, runs,
      fun f => ⟨effect.port f, effect.conv f⟩, alone, fun f k own action => ?_⟩
    obtain ⟨health, others⟩ := lost f k own action
    exact ⟨.congr (.refl s) (judgePins_unmoved t) health, others⟩
  · have gained (f : FeedId) (k : FeedCond) (own : e = feedEntry f k) (action : (s.entry e).config.action = .failover)
        (ill : (s.feed f).healthy = false) (enabled : (s.feed f).port.enable = true)
        (last : ∀ k', k' ≠ k → ¬HoldsUnhealthy (s.entry (feedEntry f k'))) :
        HealthGained f s (handOver e .released (releaseEntry e s)) ∧
          OtherFeedsKept f s (handOver e .released (releaseEntry e s)) := by
      subst own
      exact release_gained (.refl s) rfl (fun _ => rfl) action ill enabled last
    obtain ⟨entry, effect, reported, silent, alone⟩ := release_acted e s
    refine ⟨_, exec_clearExpiry live falling timer, ?_⟩
    generalize handOver e .released (releaseEntry e s) = t at *
    have runs : RunsKept s (judgePins t) := effect.runsKept
    rw [judgePins_entry, entry]
    refine ⟨rfl, rfl, rfl, rfl, reported, silent, effect.cond, effect.quiet.store, runs,
      fun f => ⟨effect.port f, effect.conv f⟩, alone, fun f k own action ill enabled last => ?_⟩
    obtain ⟨health, others⟩ := gained f k own action ill enabled last
    exact ⟨.congr (.refl s) (judgePins_unmoved t) health, others⟩
  · obtain ⟨u, course⟩ := blockClose_alarmCourse (e := e) kind o s
    refine ⟨judgePins (blockClose o s), onUnit_running live, ?_⟩
    generalize blockClose o s = t at *
    have entry := course.entry
    rw [judgePins_entry]
    refine ⟨fun rest => ?_, fun runs left => ?_, fun rising out together => ?_, fun falling out together => ?_⟩
    · have same := closeAlarm_still (e := e) (s := u) (by rw [entry]; exact rest) o.expiriesApart
      have left := course.left
      rw [same] at left
      exact left.trans entry
    · have same := closeAlarm_counts (e := e) (s := u) (by rw [entry]; exact runs) (by rw [entry]; exact left)
      have left := course.left
      rw [same, State.setEntry_entry_self, entry] at left
      exact left
    · have same : closeAlarm o.expiriesApart e u = handOver e .raised (raiseEntry e (u.timed e)) := by
        rw [together]
        exact closeAlarm_raises (by rw [entry]; exact rising) (by rw [entry]; exact out)
      have acted := raise_acted e (u.timed e)
      rw [← same, State.timed_entry, entry] at acted
      obtain ⟨raised, reported⟩ := course.acted acted
      rw [raised]
      refine ⟨rfl, rfl, rfl, course.counter, fun loud => ⟨if_neg loud, if_neg loud, reported loud⟩,
        fun f k own action => ?_⟩
      obtain ⟨lost, ill⟩ := course.lost own action same
      exact ⟨ill, fun healthy quiet p running names sourced auto =>
        course.triggers lost healthy quiet running names sourced auto⟩
    · have same : closeAlarm o.expiriesApart e u = handOver e .released (releaseEntry e (u.timed e)) := by
        rw [together]
        exact closeAlarm_releases (by rw [entry]; exact falling) (by rw [entry]; exact out)
      have acted := release_acted e (u.timed e)
      rw [← same, State.timed_entry, entry] at acted
      obtain ⟨released, reported⟩ := course.acted acted
      rw [released]
      exact ⟨rfl, rfl, rfl, rfl, reported⟩
  · obtain ⟨entry, -, reported, -, alone⟩ := setCond_acted_raised clear delay off
    have lost (f : FeedId) (k : FeedCond) (own : e = feedEntry f k) (action : (s.entry e).config.action = .failover) :=
      setCond_lost own clear delay off action
    generalize setCond e true s = t at *
    rw [entry]
    refine ⟨fun action => ?_, lost, rfl, rfl, rfl, fun loud => ⟨if_neg loud, if_neg loud, ?_⟩⟩
    · obtain ⟨feeds, progs, -⟩ := alone action
      exact ⟨feeds, progs⟩
    · exact .congr (.same rfl rfl) rfl (reported loud) (.refl t)
  · obtain ⟨entry, -, reported, -, alone⟩ := setCond_acted_released active delay on
    have gained (f : FeedId) (k : FeedCond) (own : e = feedEntry f k) (action : (s.entry e).config.action = .failover)
        (ill : (s.feed f).healthy = false) (enabled : (s.feed f).port.enable = true)
        (last : ∀ k', k' ≠ k → ¬HoldsUnhealthy (s.entry (feedEntry f k'))) :=
      setCond_gained own active delay on action ill enabled last
    generalize setCond e false s = t at *
    rw [entry]
    refine ⟨fun action => ?_, gained, rfl, rfl, fun loud => ?_⟩
    · obtain ⟨feeds, progs, -⟩ := alone action
      exact ⟨feeds, progs⟩
    · exact .congr (.same rfl rfl) rfl (reported loud) (.refl t)

end Sys2Proof.Machine
end
